-- ==== Sys2Proof/Word.lean ====
section
/-! DEFINITION. The word types of VD-XCORE: every value the spec numbers by bits (00_scope.md R12). All are
unsigned; counters, indexes and memory addresses used as list keys are `Nat`. -/

namespace Sys2Proof

/-- A byte: the unit of the transport's two streams, of PBUF and of the byte source (R60, R68). -/
abbrev Byte := BitVec 8

/-- A 16-bit word: a CRC ROM entry, `crc_r`, `blockCrc` (R41, R42, R43). -/
abbrev Word16 := BitVec 16

/-- A 32-bit word: `fileSize`, `totalBlocks`, `srcPos`, `blockIndex` (R8). -/
abbrev Word32 := BitVec 32

/-- The 43-bit START operand word, `host_cmd` (R90). -/
abbrev HostWord := BitVec 43

/-- The 10-bit CRGEN operation word, `crc_op` (R89). -/
abbrev CrcWord := BitVec 10

end Sys2Proof
end

