-- ==== Sys2Proof/Config.lean ====
section
/-! DEFINITION. What one VD-XCORE fixes (00_scope.md section 4): the payload size, the wire constants, the table's
polynomial and the default of the RUN_BYTE parameter. MAX_RETRY (R6) and FILE_SIZE (R8) are no constants here: the host supplies both
with START. RUN_BYTE itself is a field of State, so that a claim can quantify over it (notes/assumptions/11.md). -/

namespace Sys2Proof.Config

/-- R5: `BLOCK_SIZE`, fixed at 128 for this hardware. -/
def blockSize : Nat := 128

/-- R5: the frame length, `BLOCK_SIZE + 5`. -/
def frameLength : Nat := blockSize + 5

/-- R7: the default of the parameter `RUN_BYTE`. -/
def runByteDefault : Byte := 0x1D

/-- R10: the polynomial x^16 + x^12 + x^5 + 1 with its top term implied. -/
def crcPolynomial : Word16 := 0x1021

/-- R10: the initial running value of the CRC. -/
def crcInitial : Word16 := 0x0000

end Sys2Proof.Config

namespace Sys2Proof

/-! R9: "Fixed wire constants. These are not parameters". The handshake symbol 'C' is 0x43. -/

def Wire.soh : Byte := 0x01
def Wire.eot : Byte := 0x04
def Wire.ack : Byte := 0x06
def Wire.nak : Byte := 0x15
def Wire.can : Byte := 0x18
def Wire.sub : Byte := 0x1A
def Wire.handshake : Byte := 0x43

end Sys2Proof
end

