-- ==== Sys2Proof/Syntax.lean ====
section
/-! DEFINITION. The units VD-XCORE reacts to and produces (30_encoding.md). VD-XCORE decodes no instruction words: its
"instructions" are the input events of its steps, the units it transmits and the operations of CRGEN, one constructor
of `Instr` per row of spec/opcode_table.json. -/

namespace Sys2Proof

/-- R88: the codes of `src_status` that START accepts. Code 3 is no value of this type: a host word that holds it
decodes to `Instr.hostStartRsv`. -/
inductive SrcStatus where
  | ok
  | notFound
  | openFailed
  deriving DecidableEq, Repr

/-- The rows of spec/opcode_table.json. Operands that the machine ignores (the data bits of HOLD, CLEAR and the
reserved `crc_op`, the other operands of a reserved START) are kept, so that no bit of an encoding is dropped. -/
inductive Instr where
  /-- RX_HANDSHAKE: the byte 0x43 ('C') was received (R135, R136). -/
  | rxHandshake
  /-- RX_ACK: the byte 0x06 was received (R137, R138). -/
  | rxAck
  /-- RX_NAK: the byte 0x15 was received (R137, R139). -/
  | rxNak
  /-- RX_CAN: the byte 0x18 was received (R140). -/
  | rxCan
  /-- RX_OTHER: any other byte was received (R141). -/
  | rxOther (b : Byte)
  /-- RX_FAIL: the read answered `rxfail` (R143). -/
  | rxFail
  /-- TX_FRAME: one block attempt, `SendFrame()` (R176). Its operands are registers of the engine. -/
  | txFrame
  /-- TX_EOT: the end-of-transmission byte (R178). -/
  | txEot
  /-- TX_RUN: the run byte, sent only where `runFlag` is set (R178). -/
  | txRun
  /-- HOST_START: the host's `upload` call (R131). -/
  | hostStart (status : SrcStatus) (startAfterUpload : Bool) (maxRetry : Byte) (fileSize : Word32)
  /-- HOST_START_RSV: START with `src_status` = 3 (R130). -/
  | hostStartRsv (startAfterUpload : Bool) (maxRetry : Byte) (fileSize : Word32)
  /-- CRC_HOLD (R113). -/
  | crcHold (ignored : Byte)
  /-- CRC_CLEAR (R114). -/
  | crcClear (ignored : Byte)
  /-- CRC_UPDATE d (R115). -/
  | crcUpdate (d : Byte)
  /-- CRC_RSV: `crc_op` = 0b11 (R118). -/
  | crcRsv (ignored : Byte)
  deriving DecidableEq, Repr

/-- R80: the six formats. -/
inductive Format where
  | rxSymbol
  | rxEvent
  | txFrame
  | txSymbol
  | hostCmd
  | crcOp
  deriving DecidableEq, Repr

/-- An encoded unit, as the decoder meets it. Of a transmitted unit it holds the first byte, which tells the unit
(R93); the other 132 bytes of a frame are built from registers (R175). -/
inductive Coded where
  | rxSymbol (b : Byte)
  | rxEvent
  | txUnit (first : Byte)
  | hostCmd (w : HostWord)
  | crcOp (w : CrcWord)
  deriving DecidableEq, Repr

/-- Why the decoder rejects a unit. -/
inductive DecodeError where
  /-- the number has a bit set above the width of its format (R80) -/
  | tooWide (f : Format)
  /-- no transmitted unit begins with this byte (R93) -/
  | noSuchTxUnit (first : Byte)
  /-- a `tx_frame` whose first byte is not SOH (R84) -/
  | notAFrame (first : Byte)
  deriving DecidableEq, Repr

/-- R84, R91: a whole unit of the TX stream, as a receiver sees it. -/
inductive TxUnit where
  | frame (blockNumber : Byte) (payload : List Byte) (crc : Word16)
  | eot
  | run
  deriving DecidableEq, Repr

end Sys2Proof
end

