-- ==== Sys2Proof/WellFormed.lean ====
section
/-! DEFINITION. Which terms of the syntax stand for a unit of the hardware. -/

namespace Sys2Proof

/-- R81: the four received bytes that have a class of their own. -/
def Wire.alphabet : List Byte :=
  [Wire.handshake, Wire.ack, Wire.nak, Wire.can]

/-- An instruction is well-formed when some encoding stands for it: RX_OTHER holds none of the four named bytes
(R81, R141). Every operand value of every other row is encodable. -/
def Instr.wf : Instr → Bool
  | .rxHandshake => true
  | .rxAck => true
  | .rxNak => true
  | .rxCan => true
  | .rxOther b => !(Wire.alphabet.contains b)
  | .rxFail => true
  | .txFrame => true
  | .txEot => true
  | .txRun => true
  | .hostStart _ _ _ _ => true
  | .hostStartRsv _ _ _ => true
  | .crcHold _ => true
  | .crcClear _ => true
  | .crcUpdate _ => true
  | .crcRsv _ => true

/-- A transmitted unit is well-formed when its payload has exactly `BLOCK_SIZE` bytes (R84). -/
def TxUnit.wf : TxUnit → Bool
  | .frame _ payload _ => payload.length == Config.blockSize
  | .eot => true
  | .run => true

/-- R7, R93: a value of RUN_BYTE under which the first byte of a unit tells the unit. -/
def runByteDistinct (runByte : Byte) : Bool :=
  !(runByte == Wire.soh) && !(runByte == Wire.eot)

end Sys2Proof
end

