-- ==== Sys2Proof/Decode.lean ====
section
/-! DEFINITION. The decoder of every format of 30_encoding.md, total, rejecting by name, and after it the encoder.
A unit is one number with bit 0 its least significant bit (R12); for a unit of several bytes the first byte is the
lowest. -/

namespace Sys2Proof

/-! ## The decoder -/

/-- R81: the class of a received byte, compared on all 8 bits. Total: every other value is `rxOther` (R82, R83). -/
def decodeRx (b : Byte) : Instr :=
  if b = Wire.handshake then .rxHandshake
  else if b = Wire.ack then .rxAck
  else if b = Wire.nak then .rxNak
  else if b = Wire.can then .rxCan
  else .rxOther b

/-- R88: the codes of `src_status`; 3 is reserved. -/
def SrcStatus.ofCode? (c : BitVec 2) : Option SrcStatus :=
  if c = 0 then some .ok
  else if c = 1 then some .notFound
  else if c = 2 then some .openFailed
  else none

/-- R90: `host_cmd`, bits [1:0] `src_status`, [2] `start_after_upload`, [10:3] `max_retry`, [42:11] `file_size`. -/
def decodeHost (w : HostWord) : Instr :=
  let run := w.getLsbD 2
  let maxRetry := w.extractLsb' 3 8
  let fileSize := w.extractLsb' 11 32
  match SrcStatus.ofCode? (w.extractLsb' 0 2) with
  | some st => .hostStart st run maxRetry fileSize
  | none => .hostStartRsv run maxRetry fileSize

/-- R89: `crc_op`, bits [1:0] the operation, bits [9:2] the data byte. -/
def decodeCrc (w : CrcWord) : Instr :=
  let d := w.extractLsb' 2 8
  let op := w.extractLsb' 0 2
  if op = 0 then .crcHold d
  else if op = 1 then .crcClear d
  else if op = 2 then .crcUpdate d
  else .crcRsv d

/-- R93: the first byte of a transmitted unit tells which unit it is; `runByte` is the parameter RUN_BYTE (R91). -/
def decodeTx (runByte first : Byte) : Except DecodeError Instr :=
  if first = Wire.soh then .ok .txFrame
  else if first = Wire.eot then .ok .txEot
  else if first = runByte then .ok .txRun
  else .error (.noSuchTxUnit first)

/-- The decoder: the instruction an encoded unit stands for. The format comes from the interface the unit is met on
(R80), never from the unit's bits. -/
def decode (runByte : Byte) : Coded → Except DecodeError Instr
  | .rxSymbol b => .ok (decodeRx b)
  | .rxEvent => .ok .rxFail
  | .txUnit first => decodeTx runByte first
  | .hostCmd w => .ok (decodeHost w)
  | .crcOp w => .ok (decodeCrc w)

/-! ## Units as plain numbers -/

/-- R80: the width in bits of each format. -/
def Format.width : Format → Nat
  | .rxSymbol => 8
  | .rxEvent => 0
  | .txFrame => 8 * Config.frameLength
  | .txSymbol => 8
  | .hostCmd => 43
  | .crcOp => 10

/-- A unit of format `f` written as one number. A number too wide for the format is rejected; so is a `tx_frame` that
does not begin with SOH (R84). -/
def codedOfNat (f : Format) (w : Nat) : Except DecodeError Coded :=
  if w < 2 ^ f.width then
    match f with
    | .rxSymbol => .ok (.rxSymbol (BitVec.ofNat 8 w))
    | .rxEvent => .ok .rxEvent
    | .txFrame =>
      if BitVec.ofNat 8 w = Wire.soh then .ok (.txUnit Wire.soh) else .error (.notAFrame (BitVec.ofNat 8 w))
    | .txSymbol => .ok (.txUnit (BitVec.ofNat 8 w))
    | .hostCmd => .ok (.hostCmd (BitVec.ofNat 43 w))
    | .crcOp => .ok (.crcOp (BitVec.ofNat 10 w))
  else .error (.tooWide f)

/-- The decoder on numbers: total, rejecting by name. -/
def decodeNat (runByte : Byte) (f : Format) (w : Nat) : Except DecodeError Instr :=
  match codedOfNat f w with
  | .ok c => decode runByte c
  | .error e => .error e

/-- Which format a word of spec/opcode_table.json is of, from its width in whole bytes. Among the one-byte rows the
three transmitted units are told by their value, the more exact row winning over RX_OTHER, whose mask is 0x00
(notes/assumptions/12.md). The machine itself never uses this: there the interface gives the format. -/
def formatOfTableWord (nbits w : Nat) : Format :=
  if nbits = 0 then .rxEvent
  else if nbits ≤ 8 then
    if w = Wire.soh.toNat then .txFrame
    else if w = Wire.eot.toNat then .txSymbol
    else if w = Config.runByteDefault.toNat then .txSymbol
    else .rxSymbol
  else if nbits ≤ 16 then .crcOp
  else if nbits ≤ 48 then .hostCmd
  else .txFrame

/-- The encoded unit that a word of spec/opcode_table.json lays out. -/
def codedOfTableWord (nbits w : Nat) : Except DecodeError Coded :=
  codedOfNat (formatOfTableWord nbits w) w

/-- The instruction the decoder reads from a word numbered as spec/opcode_table.json numbers it. -/
def decodeTableWord (nbits w : Nat) : Option Instr :=
  match codedOfTableWord nbits w with
  | .ok c => (decode Config.runByteDefault c).toOption
  | .error _ => none

/-! ## The encoder -/

/-- R88. -/
def SrcStatus.code : SrcStatus → BitVec 2
  | .ok => 0
  | .notFound => 1
  | .openFailed => 2

/-- R90: the four fields of the START operand word at their bits. -/
def encodeHost (status : BitVec 2) (run : Bool) (maxRetry : Byte) (fileSize : Word32) : HostWord :=
  (fileSize.setWidth 43 <<< 11) ||| (maxRetry.setWidth 43 <<< 3) ||| ((BitVec.ofBool run).setWidth 43 <<< 2) |||
    status.setWidth 43

/-- R89: the two fields of the CRGEN operation word at their bits. -/
def encodeCrc (d : Byte) (op : BitVec 2) : CrcWord :=
  (d.setWidth 10 <<< 2) ||| op.setWidth 10

/-- The encoded unit of a well-formed instruction. -/
def encode (runByte : Byte) : Instr → Coded
  | .rxHandshake => .rxSymbol Wire.handshake
  | .rxAck => .rxSymbol Wire.ack
  | .rxNak => .rxSymbol Wire.nak
  | .rxCan => .rxSymbol Wire.can
  | .rxOther b => .rxSymbol b
  | .rxFail => .rxEvent
  | .txFrame => .txUnit Wire.soh
  | .txEot => .txUnit Wire.eot
  | .txRun => .txUnit runByte
  | .hostStart st run maxRetry fileSize => .hostCmd (encodeHost st.code run maxRetry fileSize)
  | .hostStartRsv run maxRetry fileSize => .hostCmd (encodeHost 3 run maxRetry fileSize)
  | .crcHold d => .crcOp (encodeCrc d 0)
  | .crcClear d => .crcOp (encodeCrc d 1)
  | .crcUpdate d => .crcOp (encodeCrc d 2)
  | .crcRsv d => .crcOp (encodeCrc d 3)

/-! ## The TX stream, as a receiver reads it (R84, R91, R93) -/

/-- R84, R85: the complement byte of a frame, `255 - blockNumber`. -/
def complementByte (blockNumber : Byte) : Byte :=
  255 - blockNumber

/-- R64, R85: bits 15:8 of the CRC, sent first. -/
def crcHigh (crc : Word16) : Byte :=
  crc.extractLsb' 8 8

/-- R64, R85: bits 7:0 of the CRC, sent last. -/
def crcLow (crc : Word16) : Byte :=
  crc.extractLsb' 0 8

/-- R64: the CRC from its two bytes on the wire, high byte first. -/
def crcOfBytes (hi lo : Byte) : Word16 :=
  (hi.setWidth 16 <<< 8) ||| lo.setWidth 16

/-- R84: the bytes of one frame in transmission order. -/
def frameBytes (blockNumber : Byte) (payload : List Byte) (crc : Word16) : List Byte :=
  [Wire.soh, blockNumber, complementByte blockNumber] ++ payload ++ [crcHigh crc, crcLow crc]

/-- The bytes of one unit of the TX stream. -/
def TxUnit.bytes (runByte : Byte) : TxUnit → List Byte
  | .frame bn payload crc => frameBytes bn payload crc
  | .eot => [Wire.eot]
  | .run => [runByte]

/-- The first unit of a byte stream, with the bytes after it; `none` where no whole unit stands there. -/
def TxUnit.read? (runByte : Byte) (bs : List Byte) : Option (TxUnit × List Byte) :=
  match bs with
  | [] => none
  | first :: rest =>
    if first = Wire.soh then
      match rest with
      | bn :: bnc :: body =>
        match body.drop Config.blockSize with
        | hi :: lo :: after =>
          if bnc = complementByte bn then
            some (.frame bn (body.take Config.blockSize) (crcOfBytes hi lo), after)
          else none
        | _ => none
      | _ => none
    else if first = Wire.eot then some (.eot, rest)
    else if first = runByte then some (.run, rest)
    else none

/-- R93: a TX stream as its sequence of units. Each unit has at least one byte, so `fuel` = the stream's length is
enough; `none` where the stream is no sequence of whole units. -/
def TxUnit.readAll? (runByte : Byte) : Nat → List Byte → Option (List TxUnit)
  | _, [] => some []
  | 0, _ :: _ => none
  | fuel + 1, b :: bs =>
    match TxUnit.read? runByte (b :: bs) with
    | some (u, rest) => (TxUnit.readAll? runByte fuel rest).map (u :: ·)
    | none => none

end Sys2Proof
end

