-- ==== Sys2Proof/Machine/State.lean ====
section
/-! DEFINITION. The state of VD-XCORE (10_state.md) with the agents around it (R11) as plain data, the reasons a step
can stop, and the state after reset (70_reset_and_hazards.md R230). CRC_ROM (R43) is no field: its content is fixed and
nothing writes it (R61), so it is the constant `romRead` of Machine/CrcRom.lean. `busy` (R23) is derived, not stored. -/

namespace Sys2Proof.Machine

/-- Bytes at addresses, in one canonical form: addresses strictly rising, no entry equal to what an unlisted address
reads as (`Memory.wf`, Machine/Memory.lean). -/
abbrev Memory := List Host.Cell

/-- R20, R86: the values of the 3-bit register `state`. Code 7 is never written (R92) and is no value here. -/
inductive EngineState where
  | idle
  | awaitingStart
  | sendingBlock
  | awaitingTerminationAck
  | done
  | failed
  | cancelled
  deriving DecidableEq, Repr

/-- R22, R87: the values of the 3-bit register `result`. Code 7 is never written (R92) and is no value here. -/
inductive SessionResult where
  | none
  | success
  | sourceNotFound
  | sourceOpenFailed
  | transportFailure
  | retryLimitExceeded
  | cancelledByPeer
  deriving DecidableEq, Repr

/-- R28: the transport's answer to one `RxRead()`. -/
inductive RxAnswer where
  | byte (b : Byte)
  | rxfail
  deriving DecidableEq, Repr

/-- R29: the transport's answer to one `TxWrite(s)`, or what happens instead of an answer. -/
inductive TxAnswer where
  /-- every byte of s was delivered, in order -/
  | ok
  /-- `txfail`: the first k bytes of s were delivered, fewer than all of them (D12) -/
  | txfail (k : Nat)
  /-- hardware reset cut the write after k bytes (R231) -/
  | cutByReset (k : Nat)
  /-- no answer yet: the engine stays blocked in the write until the answer comes as an input (R214), for ever if none
  comes (R243) -/
  | pending
  deriving DecidableEq, Repr

/-- R233: the duties of the host whose breach during a session has no meaning in the spec (R240). A START while busy
is no event of this type: it is a `host` input that the engine meets in a busy state. -/
inductive HostBreach where
  /-- another agent reads or writes the transport (R73) -/
  | secondTransportUser
  /-- the content of the byte source changes (R30) -/
  | sourceChanged
  deriving DecidableEq, Repr

/-- What the world outside the engine does next. -/
inductive Input where
  /-- the transport's answer to a read of the engine; until a read asks for it, it stays in the transport (R46) -/
  | rx (a : RxAnswer)
  /-- the transport answers the write the engine is blocked in (R214); where it is blocked in none, the transport decides
  its answer to a write that is still to come (the TXFAIL line of R94) -/
  | tx (a : TxAnswer)
  /-- the host issues START: the operand word and, beside it, the source content (R30, R90) -/
  | host (w : HostWord) (content : Memory)
  /-- hardware reset (R230, R231) -/
  | reset
  /-- the host breaks a duty of R233 -/
  | breach (b : HostBreach)
  /-- one operation on CRGEN's `crc_op` input (R89, R110), internal to the block (R116) -/
  | crcOp (w : CrcWord)
  /-- one unit for the transmitter, named by its first byte (R91, R93), internal to the block -/
  | txUnit (first : Byte)
  deriving DecidableEq, Repr

/-- What the world outside the engine sees it do, one entry per call (R47). -/
inductive Output where
  /-- R32: one event on the progress sink -/
  | progress (blockIndex totalBlocks : Word32)
  /-- R29: the bytes that one `TxWrite` put on the wire -/
  | wire (bytes : List Byte)
  deriving DecidableEq, Repr

/-- A part of a row that stands after a part which may block. It is data, so that a blocked write can hold what is
left of its step (R14, R214). -/
inductive RowPart where
  /-- R135: `state <- SENDING_BLOCK` -/
  | enterSending
  /-- R176: `SendFrame()` -/
  | sendFrame
  /-- R178: the RUN unit where `runFlag` is set -/
  | sendRun
  /-- R142: `state <- DONE; result <- SUCCESS` -/
  | enterDone
  deriving DecidableEq, Repr

/-- R214: a write the engine is blocked in: the bytes it was given, and the parts of its step still to run, in order. -/
structure BlockedWrite where
  bytes : List Byte
  rest : List RowPart
  deriving DecidableEq, Repr

/-- The machine. -/
structure State where
  /-- R20: `state` -/
  state : EngineState
  /-- R22: `result` -/
  result : SessionResult
  /-- R24: `blockNumber` -/
  blockNumber : Byte
  /-- R26: `currentTry` -/
  currentTry : Byte
  /-- R27: `maxRetryL` -/
  maxRetryL : Byte
  /-- R33: `fileSize` -/
  fileSize : Word32
  /-- R34: `totalBlocks` -/
  totalBlocks : Word32
  /-- R35: `srcPos` -/
  srcPos : Word32
  /-- R36: `chunkLen` -/
  chunkLen : Byte
  /-- R37: `blockIndex` -/
  blockIndex : Word32
  /-- R38: `eofReached` -/
  eofReached : Bool
  /-- R39: `runFlag` -/
  runFlag : Bool
  /-- R40: `PBUF` -/
  pbuf : Memory
  /-- R41: `blockCrc` -/
  blockCrc : Word16
  /-- R42: `crc_r` -/
  crcR : Word16
  /-- R214: the write the engine is blocked in; `none` at a step boundary of R14 (notes/assumptions/6.md) -/
  blockedWrite : Option BlockedWrite
  /-- R7: the parameter `RUN_BYTE`, fixed for one machine -/
  runByte : Byte
  /-- R30: the content of the byte source, the space SRC of R60, as the host presents it with START -/
  source : Memory
  /-- R28, R31: what the outside world does next, oldest first -/
  inputs : List Input
  /-- R29: the transport's answers to the writes to come, next first; a write it lists no answer for is answered
  `ok` (R94) -/
  txAnswers : List TxAnswer
  /-- R32, R72: the progress events and the TX stream so far, oldest first -/
  outputs : List Output
  deriving DecidableEq, Repr

/-- Why a step ends without a next state though every unit it met has a meaning. -/
inductive Fault where
  /-- Raised by the framer on a PBUF byte that no loader has written since reset (R49, R62). Safe: the spec itself
  makes that read a fault, and no run of a host reaches it. -/
  | pbufUnwritten
  /-- Raised by the block loader on a source byte at or past `fileSize`, an address the space SRC does not have (R30,
  R60, R63). Safe, and unreachable: the loader forms no such index. -/
  | sourceOutOfRange
  deriving DecidableEq, Repr

/-- Why the model gives a step no meaning. -/
inductive Refusal where
  /-- Raised by a rejected arm of `exec`: the instruction has no meaning yet. Safe. -/
  | notModelled (mnemonic : String)
  /-- Raised by START in a busy state (R130, R240). Safe: the spec gives it no meaning. -/
  | startWhileBusy
  /-- Raised by START with `src_status` = 3 (R88, R130, R240). Safe: the spec gives it no meaning. -/
  | reservedSrcStatus
  /-- Raised by `crc_op` = 0b11 (R118, R240). Safe: the spec gives it no meaning. -/
  | reservedCrcOp
  /-- Raised by a breach of a host duty while a session runs (R73, R233, R240). Safe: the spec gives it no meaning. -/
  | hostBreach (b : HostBreach)
  /-- Raised by the fetch on a unit the decoder rejects. Safe: the spec has no such unit (R93). -/
  | undecoded (e : DecodeError)
  deriving DecidableEq, Repr

/-- How a piece of a step goes on (R14, R203): to the next statement, or to the end of the step. -/
inductive Flow where
  /-- the next statement runs in this state -/
  | go (s : State)
  /-- the step ends here, in this state: no later statement of it runs -/
  | ended (s : State)
  /-- the step is blocked in a write, in this state (R214) -/
  | waiting (s : State)
  /-- the step has no next state -/
  | stuck (f : Fault)
  deriving DecidableEq, Repr

/-- R230: the state after reset. The spec gives `state`, `result`, `crc_r` and an unwritten PBUF. Where it leaves a
register unspecified the model names zero (DESIGN CHOICE, unsafe, notes/assumptions/1.md). RUN_BYTE has its default
(R7). Nothing has happened outside yet. -/
def State.reset : State where
  state := .idle
  result := .none
  blockNumber := 0
  currentTry := 0
  maxRetryL := 0
  fileSize := 0
  totalBlocks := 0
  srcPos := 0
  chunkLen := 0
  blockIndex := 0
  eofReached := false
  runFlag := false
  pbuf := []
  blockCrc := 0
  crcR := 0x0000
  blockedWrite := none
  runByte := Config.runByteDefault
  source := []
  inputs := []
  txAnswers := []
  outputs := []

end Sys2Proof.Machine
end

