-- ==== Sys2Proof/Machine/Flags.lean ====
section
/-! DEFINITION. The state classes (R21), the status ports (R23, R47, R86, R87) and the one computed flag (R38). No
instruction sets a flag as a side effect; CRGEN has none (R110). -/

namespace Sys2Proof.Machine

/-- R21: the states in which XENG performs `RxRead()`. -/
def EngineState.reading : EngineState → Bool
  | .idle => false
  | .awaitingStart => true
  | .sendingBlock => true
  | .awaitingTerminationAck => false
  | .done => false
  | .failed => false
  | .cancelled => false

/-- R21: the terminal states. -/
def EngineState.terminal : EngineState → Bool
  | .idle => false
  | .awaitingStart => false
  | .sendingBlock => false
  | .awaitingTerminationAck => false
  | .done => true
  | .failed => true
  | .cancelled => true

/-- R21: the busy states. -/
def EngineState.busy : EngineState → Bool
  | .idle => false
  | .awaitingStart => true
  | .sendingBlock => true
  | .awaitingTerminationAck => true
  | .done => false
  | .failed => false
  | .cancelled => false

/-- R21: the idle-like states, in which START is accepted (R130). -/
def EngineState.idleLike (e : EngineState) : Bool :=
  decide (e = .idle) || e.terminal

/-- R86: the code of `state`. -/
def EngineState.code : EngineState → BitVec 3
  | .idle => 0
  | .awaitingStart => 1
  | .sendingBlock => 2
  | .awaitingTerminationAck => 3
  | .done => 4
  | .failed => 5
  | .cancelled => 6

/-- R87: the code of `result`. -/
def SessionResult.code : SessionResult → BitVec 3
  | .none => 0
  | .success => 1
  | .sourceNotFound => 2
  | .sourceOpenFailed => 3
  | .transportFailure => 4
  | .retryLimitExceeded => 5
  | .cancelledByPeer => 6

/-- R23: `busy`, derived from `state`. -/
def State.busy (s : State) : Bool :=
  s.state.busy

/-- R31, R47: what the host reads at a step boundary: `state`, `result` and `busy`. -/
structure StatusPorts where
  state : BitVec 3
  result : BitVec 3
  busy : Bool
  deriving DecidableEq, Repr

/-- R47: the host's view of a state. -/
def State.statusPorts (s : State) : StatusPorts where
  state := s.state.code
  result := s.result.code
  busy := s.busy

/-- R38: `srcPos ≥ fileSize`, the test for an exhausted source. -/
def State.sourceExhausted (s : State) : Bool :=
  decide (s.fileSize.toNat ≤ s.srcPos.toNat)

/-- R47, R72: the TX stream so far, as the transport sees it. -/
def State.wireBytes (s : State) : List Byte :=
  s.outputs.flatMap fun
    | .progress _ _ => []
    | .wire bs => bs

/-- R179: the trace of progress events so far. -/
def State.progressTrace (s : State) : List (Word32 × Word32) :=
  s.outputs.filterMap fun
    | .progress i n => some (i, n)
    | .wire _ => none

end Sys2Proof.Machine
end

