-- ==== Sys2Proof/Machine/Memory.lean ====
section
/-! DEFINITION. The byte spaces of R60 as canonical lists: reading and writing one byte, and the canonical form. The
third space, ROM, has 16-bit entries and no write (R61): Machine/CrcRom.lean. -/

namespace Sys2Proof.Machine

/-- R60: the two spaces whose unit is a byte. -/
inductive Space where
  | pbuf
  | src
  deriving DecidableEq, Repr

/-- R60: the number of addresses of a space. SRC has `fileSize` bytes, which a 32-bit register holds; the bound for
one session is checked where the loader reads (`srcRead`). -/
def Space.size : Space → Nat
  | .pbuf => Config.blockSize
  | .src => 2 ^ 32

/-- What an unlisted address reads as. A PBUF byte no loader has written holds no value (R62). A source byte that the
list leaves out is 0x00: every content of a source is a list in this form (notes/assumptions/14.md). -/
def Space.unlisted : Space → Option Byte
  | .pbuf => none
  | .src => some 0x00

/-- The byte listed at an address. -/
def Memory.listed : Memory → Nat → Option Byte
  | [], _ => none
  | (b, v) :: m, a => if b = a then some v else Memory.listed m a

/-- R62, R63: the byte at an address of a space; `none` where it holds no value. -/
def Memory.read (sp : Space) (m : Memory) (a : Nat) : Option Byte :=
  match m.listed a with
  | some v => some v
  | none => sp.unlisted

/-- The list entry for a byte: none where the byte is what an unlisted address reads as. -/
def Memory.entry (sp : Space) (a : Nat) (v : Byte) : Memory :=
  if sp.unlisted = some v then [] else [(a, v)]

/-- R62: set the byte at an address, keeping the canonical form. -/
def Memory.write (sp : Space) : Memory → Nat → Byte → Memory
  | [], a, v => Memory.entry sp a v
  | (b, w) :: m, a, v =>
    if a < b then Memory.entry sp a v ++ (b, w) :: m
    else if a = b then Memory.entry sp a v ++ m
    else (b, w) :: Memory.write sp m a v

/-- Every address listed is at least `lo` and the addresses rise strictly. -/
def Memory.risingFrom : Nat → Memory → Bool
  | _, [] => true
  | lo, (a, _) :: m => decide (lo ≤ a) && Memory.risingFrom (a + 1) m

/-- The canonical form of a space's bytes: addresses strictly rising and inside the space, no entry equal to what an
unlisted address reads as. -/
def Memory.wf (sp : Space) (m : Memory) : Bool :=
  Memory.risingFrom 0 m && m.all fun c => decide (c.1 < sp.size) && decide (sp.unlisted ≠ some c.2)

/-- A space whose first bytes are those of a list, written in order from address 0. -/
def Memory.ofBytes (sp : Space) (bs : List Byte) : Memory :=
  (bs.zipIdx).foldl (fun m c => Memory.write sp m c.2 c.1) []

end Sys2Proof.Machine
end

