-- ==== Sys2Proof/Machine/Operands.lean ====
section
/-! DEFINITION. How operands are assembled (R85): the CRC index and update, the derived START operand, the chunk of a
block, and the fields of a frame. -/

namespace Sys2Proof.Machine

/-- R85, R115: the ROM index of one update, `crc_r[15:8] ^ d`. -/
def crcIndex (r : Word16) (d : Byte) : Byte :=
  r.extractLsb' 8 8 ^^^ d

/-- R112, R115: the running value after one data byte; bits above 15 of the shift are discarded. -/
def crcStep (r : Word16) (d : Byte) : Word16 :=
  (r <<< 8) ^^^ romRead (crcIndex r d)

/-- R117: `computeCRC16(s)`. -/
def computeCRC16 (bs : List Byte) : Word16 :=
  bs.foldl crcStep Config.crcInitial

/-- R34: `ceil(fileSize / 128)`. -/
def blockCount (fileSize : Word32) : Word32 :=
  BitVec.ofNat 32 ((fileSize.toNat + (Config.blockSize - 1)) / Config.blockSize)

/-- R170: `min(128, fileSize - srcPos)`. It is used only where `srcPos < fileSize`. -/
def chunkLength (fileSize srcPos : Word32) : Byte :=
  BitVec.ofNat 8 (min Config.blockSize (fileSize.toNat - srcPos.toNat))

/-- R63: `SrcRead(p)`, defined for `p < fileSize` only. -/
def srcRead (s : State) (p : Nat) : Option Byte :=
  if p < s.fileSize.toNat then s.source.read .src p else none

/-- R62: `MemRead(PBUF, i, 1)`; `none` for a byte no loader has written since reset. -/
def pbufRead (s : State) (i : Nat) : Option Byte :=
  s.pbuf.read .pbuf i

/-- R85, R175: PAYLOAD, the bytes PBUF[0..127] in index order; `none` where one of them has not been written. -/
def payload (s : State) : Option (List Byte) :=
  (List.range Config.blockSize).mapM (pbufRead s)

/-- R175: `Frame()`, from the registers and PBUF; `none` where PBUF has not been loaded. -/
def frame (s : State) : Option (List Byte) :=
  match payload s with
  | some bytes => some (frameBytes s.blockNumber bytes s.blockCrc)
  | none => none

end Sys2Proof.Machine
end

