-- ==== Sys2Proof/Machine/Ops.lean ====
section
/-! DEFINITION. The shared operations of the engine: failing a session (60_exceptions.md R203), reset
(R230), the transport write (R29), the progress sink (R32), CRGEN (R114, R115), the block loader (R170, R171), one block
attempt (R176) and termination (R142, R178). No operation returns from a failure: a terminal state is left only by
START or reset (R206). -/

namespace Sys2Proof.Machine

/-! ## Ends of a session -/

/-- R131, R203: `state <- FAILED; result <- kind`. -/
def State.enterFailed (kind : SessionResult) (s : State) : State :=
  { s with state := .failed, result := kind }

/-- R140: `state <- CANCELLED; result <- CANCELLED_BY_PEER`. -/
def State.enterCancelled (s : State) : State :=
  { s with state := .cancelled, result := .cancelledByPeer }

/-- R142: `state <- AWAITING_TERMINATION_ACK`. -/
def State.enterTerminationAck (s : State) : State :=
  { s with state := .awaitingTerminationAck }

/-- R135: `state <- SENDING_BLOCK`. -/
def State.enterSending (s : State) : State :=
  { s with state := .sendingBlock }

/-- R142: `state <- DONE; result <- SUCCESS`. -/
def State.enterDone (s : State) : State :=
  { s with state := .done, result := .success }

/-- R203: `raise Fail(kind)`. Taking this exception ends the step: nothing is saved but the kind, in `result`, and no
handler runs. -/
def raiseFail (kind : SessionResult) (s : State) : Flow :=
  .ended (s.enterFailed kind)

/-- R230, R231: every register of the block takes its reset value. What lies outside the block stays: the inputs to
come (R46), the answers to come, the source, what has been sent; so does the parameter RUN_BYTE. -/
def State.hardReset (s : State) : State :=
  { State.reset with
    runByte := s.runByte, source := s.source, inputs := s.inputs, txAnswers := s.txAnswers, outputs := s.outputs }

/-! ## The transport and the progress sink -/

/-- One entry more of what the outside world sees. -/
def State.emit (o : Output) (s : State) : State :=
  { s with outputs := s.outputs ++ [o] }

/-- R32: `Progress(blockIndex, totalBlocks)`. -/
def State.reportProgress (s : State) : State :=
  s.emit (.progress s.blockIndex s.totalBlocks)

/-- The transport's answer to the next write has been given. -/
def State.popAnswer (s : State) : State :=
  { s with txAnswers := s.txAnswers.tail }

/-- R94: the answer to the next write; `ok` unless the transport has decided otherwise. -/
def State.nextAnswer (s : State) : TxAnswer :=
  s.txAnswers.headD .ok

/-- R29: the delivered bytes of a failed write: a prefix that is shorter than the whole. -/
def strictPrefix (k : Nat) (bs : List Byte) : List Byte :=
  bs.take (min k (bs.length - 1))

/-- R214: the engine blocks in a write of `bs`. No register changes. -/
def State.blockIn (bs : List Byte) (s : State) : State :=
  { s with blockedWrite := some { bytes := bs, rest := [] } }

/-- R29, R176, R178: what an answer to `TxWrite(bs)` comes to, with `raise Fail(TRANSPORT_FAILURE)` where it is `txfail`.
Reset may cut the write (R231). While there is no answer the engine waits (R214). -/
def answerWrite (a : TxAnswer) (bs : List Byte) (s : State) : Flow :=
  match a with
  | .ok => .go (s.emit (.wire bs))
  | .txfail k => raiseFail .transportFailure (s.emit (.wire (strictPrefix k bs)))
  | .cutByReset k => .ended (s.emit (.wire (bs.take k))).hardReset
  | .pending => .waiting (s.blockIn bs)

/-- R29: `TxWrite(bs)`. -/
def txWrite (bs : List Byte) (s : State) : Flow :=
  answerWrite s.nextAnswer bs s.popAnswer

/-! ## CRGEN -/

/-- R114: `CrcClear()`. -/
def State.crcClear (s : State) : State :=
  { s with crcR := Config.crcInitial }

/-- R115: `CrcUpdate(d)`. -/
def State.crcUpdate (d : Byte) (s : State) : State :=
  { s with crcR := crcStep s.crcR d }

/-! ## The block loader -/

/-- R62: `MemWrite(PBUF, i, 1, v)`. -/
def State.pbufWrite (i : Nat) (v : Byte) (s : State) : State :=
  { s with pbuf := s.pbuf.write .pbuf i v }

/-- R170: `chunkLen <- min(128, fileSize - srcPos)`. -/
def State.measureChunk (s : State) : State :=
  { s with chunkLen := chunkLength s.fileSize s.srcPos }

/-- R170: one turn of the loader's loop: a source byte of the chunk, or the SUB filler after it. `none` where the
index is outside the source. -/
def fillByte (s : State) (k : Nat) : Option State :=
  if k < s.chunkLen.toNat then
    match srcRead s (s.srcPos.toNat + k) with
    | some v => some (s.pbufWrite k v)
    | none => none
  else some (s.pbufWrite k Wire.sub)

/-- R170: the loader's loop, k = 0 .. 127. -/
def fillPbuf (s : State) : Option State :=
  (List.range Config.blockSize).foldlM fillByte s

/-- R171: one CLEAR and an UPDATE per payload byte, then `blockCrc <- crc_r`. -/
def latchBlockCrc (bytes : List Byte) (s : State) : State :=
  let t := bytes.foldl (fun u b => u.crcUpdate b) s.crcClear
  { t with blockCrc := t.crcR }

/-- R170, R171: `LoadBlock()`. -/
def loadBlock (s : State) : Flow :=
  match fillPbuf s.measureChunk with
  | none => .stuck .sourceOutOfRange
  | some t =>
    match payload t with
    | none => .stuck .pbufUnwritten
    | some bytes => .go (latchBlockCrc bytes t)

/-! ## The transmitter -/

/-- R176: `SendFrame()`, one block attempt: the progress event first, then the frame in one write (R177). -/
def sendFrame (s : State) : Flow :=
  match frame s with
  | none => .stuck .pbufUnwritten
  | some bytes => txWrite bytes s.reportProgress

/-- R178: the EOT unit. -/
def sendEot (s : State) : Flow :=
  txWrite [Wire.eot] s

/-- R178: the RUN unit, sent only where `runFlag` = 1. -/
def sendRun (s : State) : Flow :=
  if s.runFlag then txWrite [s.runByte] s else .go s

/-! ## Parts of a row in order (R14) -/

/-- What a part of a row does. -/
def RowPart.run : RowPart → State → Flow
  | .enterSending, s => .go s.enterSending
  | .sendFrame, s => Machine.sendFrame s
  | .sendRun, s => Machine.sendRun s
  | .enterDone, s => .go s.enterDone

/-- A blocked step has one part more to run after its write (R214). -/
def State.postpone (p : RowPart) (s : State) : State :=
  { s with blockedWrite := s.blockedWrite.map fun w => { w with rest := w.rest ++ [p] } }

/-- The next part of a row runs only where the part before it goes on (R203), and after the wait where that part is
blocked (R214). -/
def Flow.andThen (f : Flow) (p : RowPart) : Flow :=
  match f with
  | .go s => p.run s
  | .ended s => .ended s
  | .waiting s => .waiting (s.postpone p)
  | .stuck f => .stuck f

/-- The outcome of a whole step. -/
def Flow.outcome : Flow → Host.Outcome State Fault Refusal
  | .go s => .next s
  | .ended s => .next s
  | .waiting s => .next s
  | .stuck f => .fault f

/-- R214: the transport's answer wakes the engine, and the rest of the step runs. -/
def resumeWrite (w : BlockedWrite) (a : TxAnswer) (s : State) : Flow :=
  w.rest.foldl Flow.andThen (answerWrite a w.bytes { s with blockedWrite := none })

/-- R178: `SendTermination()`. -/
def sendTermination (s : State) : Flow :=
  (sendEot s).andThen .sendRun

/-- R142: `EnterTermination()`. AWAITING_TERMINATION_ACK is entered and left inside one step. -/
def enterTermination (s : State) : Flow :=
  (sendTermination s.enterTerminationAck).andThen .enterDone

end Sys2Proof.Machine
end

