-- ==== Sys2Proof/Machine/Crc.lean ====
section
/-! DEFINITION. The meanings of the CRGEN operations (41_crc.md). -/

namespace Sys2Proof.Machine

/-- CRC_HOLD (R113): `crc_r <- crc_r`. The data bits are ignored (R89). -/
def execCrcHold (_ignored : Byte) (s : State) : Host.Outcome State Fault Refusal :=
  .next s

/-- CRC_CLEAR (R114). The data bits are ignored (R89). -/
def execCrcClear (_ignored : Byte) (s : State) : Host.Outcome State Fault Refusal :=
  .next s.crcClear

/-- CRC_UPDATE d (R115). -/
def execCrcUpdate (d : Byte) (s : State) : Host.Outcome State Fault Refusal :=
  .next (s.crcUpdate d)

/-- CRC_RSV (R118): `crc_op` = 0b11 "has no meaning, and a model refuses it". -/
def execCrcRsv (_ignored : Byte) (_s : State) : Host.Outcome State Fault Refusal :=
  .refused .reservedCrcOp

end Sys2Proof.Machine
end

