-- ==== Sys2Proof/Machine/Engine.lean ====
section
/-! DEFINITION. The meanings of the host command and of the received symbols: the transition table of 42_engine.md
(R134). Outside a reading state no input is read, so a received symbol changes nothing (R133). -/

namespace Sys2Proof.Machine

/-! ## START -/

/-- R131: the session registers a successful START writes. -/
def State.startSession (run : Bool) (maxRetry : Byte) (size : Word32) (s : State) : State :=
  { s with
    fileSize := size
    runFlag := run
    maxRetryL := maxRetry
    totalBlocks := blockCount size
    blockNumber := 1
    currentTry := 0
    srcPos := 0
    chunkLen := 0
    blockIndex := 0
    eofReached := false
    result := .none
    state := .awaitingStart }

/-- HOST_START (R130, R131): refused in a busy state. A source failure ends the session at once, with no register of
it written; otherwise the session registers are set and the engine awaits the handshake. -/
def execHostStart (status : SrcStatus) (run : Bool) (maxRetry : Byte) (size : Word32) (s : State) :
    Host.Outcome State Fault Refusal :=
  if s.state.idleLike then
    match status with
    | .notFound => .next (s.enterFailed .sourceNotFound)
    | .openFailed => .next (s.enterFailed .sourceOpenFailed)
    | .ok => .next (s.startSession run maxRetry size)
  else .refused .startWhileBusy

/-- HOST_START_RSV (R130): "A START with `src_status` = 3 is refused". -/
def execHostStartRsv (_run : Bool) (_maxRetry : Byte) (_size : Word32) (_s : State) :
    Host.Outcome State Fault Refusal :=
  .refused .reservedSrcStatus

/-! ## The transitions -/

/-- R135: the registers a handshake sets to the first block. -/
def State.rewind (s : State) : State :=
  { s with blockNumber := 1, srcPos := 0, currentTry := 0, blockIndex := 1 }

/-- R38: `eofReached <- b`. -/
def State.setEof (b : Bool) (s : State) : State :=
  { s with eofReached := b }

/-- R135: HANDSHAKE in AWAITING_START. -/
def beginTransfer (s : State) : Flow :=
  if s.fileSize = 0 then enterTermination (s.rewind.setEof true)
  else ((loadBlock (s.rewind.setEof false)).andThen .enterSending).andThen .sendFrame

/-- R138: the register advance of an ACK; `blockNumber` wraps from 255 to 0. -/
def State.advanceBlock (s : State) : State :=
  { s with
    blockNumber := s.blockNumber + 1
    currentTry := 0
    srcPos := s.srcPos + s.chunkLen.setWidth 32
    blockIndex := s.blockIndex + 1 }

/-- R138: ACK in SENDING_BLOCK. -/
def acknowledgeBlock (s : State) : Flow :=
  if s.advanceBlock.sourceExhausted then enterTermination (s.advanceBlock.setEof true)
  else (loadBlock s.advanceBlock).andThen .sendFrame

/-- R139: `currentTry <- currentTry + 1`. -/
def State.countRetry (s : State) : State :=
  { s with currentTry := s.currentTry + 1 }

/-- R139: NAK in SENDING_BLOCK. The limit is tested before any write (R205). -/
def retryBlock (s : State) : Flow :=
  if s.maxRetryL.toNat ≤ s.currentTry.toNat then raiseFail .retryLimitExceeded s
  else sendFrame s.countRetry

/-- RX_HANDSHAKE: R135 in AWAITING_START, ignored in SENDING_BLOCK (R136). -/
def execRxHandshake (s : State) : Host.Outcome State Fault Refusal :=
  match s.state with
  | .awaitingStart => (beginTransfer s).outcome
  | .sendingBlock => .next s
  | .idle | .awaitingTerminationAck | .done | .failed | .cancelled => .next s

/-- RX_ACK: R138 in SENDING_BLOCK, ignored in AWAITING_START (R137). -/
def execRxAck (s : State) : Host.Outcome State Fault Refusal :=
  match s.state with
  | .awaitingStart => .next s
  | .sendingBlock => (acknowledgeBlock s).outcome
  | .idle | .awaitingTerminationAck | .done | .failed | .cancelled => .next s

/-- RX_NAK: R139 in SENDING_BLOCK, ignored in AWAITING_START (R137). -/
def execRxNak (s : State) : Host.Outcome State Fault Refusal :=
  match s.state with
  | .awaitingStart => .next s
  | .sendingBlock => (retryBlock s).outcome
  | .idle | .awaitingTerminationAck | .done | .failed | .cancelled => .next s

/-- RX_CAN (R140): cancels in either reading state; nothing is transmitted. -/
def execRxCan (s : State) : Host.Outcome State Fault Refusal :=
  if s.state.reading then .next s.enterCancelled else .next s

/-- RX_OTHER (R141): ignored; the byte is dropped (R45). -/
def execRxOther (_b : Byte) (s : State) : Host.Outcome State Fault Refusal :=
  .next s

/-- RX_FAIL (R143): the session fails in either reading state; it is not retried. -/
def execRxFail (s : State) : Host.Outcome State Fault Refusal :=
  if s.state.reading then (raiseFail .transportFailure s).outcome else .next s

end Sys2Proof.Machine
end

