-- ==== Sys2Proof/Machine/Framer.lean ====
section
/-! DEFINITION. The meanings of the transmitted units (43_framer.md): what the transmitter does for one of them. -/

namespace Sys2Proof.Machine

/-- TX_FRAME (R176): one block attempt from the registers and PBUF. -/
def execTxFrame (s : State) : Host.Outcome State Fault Refusal :=
  (sendFrame s).outcome

/-- TX_EOT (R178). -/
def execTxEot (s : State) : Host.Outcome State Fault Refusal :=
  (sendEot s).outcome

/-- TX_RUN (R178): sent only where `runFlag` = 1. -/
def execTxRun (s : State) : Host.Outcome State Fault Refusal :=
  (sendRun s).outcome

end Sys2Proof.Machine
end

