-- ==== Sys2Proof/Machine/Dispatch.lean ====
section
/-! DEFINITION. The meaning of every row of spec/opcode_table.json, one arm per constructor of Instr. -/

namespace Sys2Proof.Machine

def exec (i : Instr) (s : State) : Host.Outcome State Fault Refusal :=
  match i with
  | .rxHandshake => Sys2Proof.Machine.execRxHandshake s
  | .rxAck => Sys2Proof.Machine.execRxAck s
  | .rxNak => Sys2Proof.Machine.execRxNak s
  | .rxCan => Sys2Proof.Machine.execRxCan s
  | .rxOther b => Sys2Proof.Machine.execRxOther b s
  | .rxFail => Sys2Proof.Machine.execRxFail s
  | .txFrame => Sys2Proof.Machine.execTxFrame s
  | .txEot => Sys2Proof.Machine.execTxEot s
  | .txRun => Sys2Proof.Machine.execTxRun s
  | .hostStart status run maxRetry size => Sys2Proof.Machine.execHostStart status run maxRetry size s
  | .hostStartRsv run maxRetry size => Sys2Proof.Machine.execHostStartRsv run maxRetry size s
  | .crcHold d => Sys2Proof.Machine.execCrcHold d s
  | .crcClear d => Sys2Proof.Machine.execCrcClear d s
  | .crcUpdate d => Sys2Proof.Machine.execCrcUpdate d s
  | .crcRsv d => Sys2Proof.Machine.execCrcRsv d s

end Sys2Proof.Machine
end

