-- ==== Sys2Proof/Machine/Fetch.lean ====
section
/-! DEFINITION. The front of a step: which input of the outside world comes next (R132, R133), and the instruction it
decodes to (R44: "the "instruction" is the next input event"). -/

namespace Sys2Proof.Machine

/-- What the engine can take now. In a reading state it reads the transport (R132), in no other (R133). Blocked in a
write it takes nothing but the transport's answer to it (R214), a reset (R231), and what the host may not do while it is
busy (R240). -/
def State.accepts (s : State) : Input → Bool
  | .rx _ => s.state.reading && s.blockedWrite.isNone
  | .tx _ => true
  | .host _ _ => s.state.busy || s.blockedWrite.isNone
  | .reset => true
  | .breach _ => true
  | .crcOp _ => s.blockedWrite.isNone
  | .txUnit _ => s.blockedWrite.isNone

/-- The oldest input that can be taken, with the inputs that stay, in order: a byte that nothing reads yet stays in the
transport (R46, R205). -/
def takeInput (accepts : Input → Bool) : List Input → Option (Input × List Input)
  | [] => none
  | i :: rest =>
    if accepts i then some (i, rest)
    else
      match takeInput accepts rest with
      | some (j, left) => some (j, i :: left)
      | none => none

/-- What the front of a step finds. -/
inductive Fetched where
  /-- nothing to take: the engine waits (R214) -/
  | wait
  /-- an instruction, and the state it runs in -/
  | run (i : Instr) (s : State)
  /-- the answer to the write the engine is blocked in (R214), and the state it comes in -/
  | resume (w : BlockedWrite) (a : TxAnswer) (s : State)
  /-- an event that is no instruction, and the state after it -/
  | event (s : State)
  /-- something the spec gives no meaning -/
  | refuse (r : Refusal)
  deriving DecidableEq, Repr

/-- Decode a unit in the state it is met in. -/
def fetchCoded (c : Coded) (s : State) : Fetched :=
  match decode s.runByte c with
  | .ok i => .run i s
  | .error e => .refuse (.undecoded e)

/-- R28: an answer of the transport as an encoded unit. -/
def RxAnswer.coded : RxAnswer → Coded
  | .byte b => .rxSymbol b
  | .rxfail => .rxEvent

/-- What an input comes to, in the state that has already lost it. The host presents the source with START (R30). A
breach of a host duty is refused while a session runs (R240) and is nothing outside one. -/
def deliver (i : Input) (s : State) : Fetched :=
  match i with
  | .rx a => fetchCoded a.coded s
  | .tx a =>
    match s.blockedWrite with
    | some w => .resume w a s
    | none => .event { s with txAnswers := s.txAnswers ++ [a] }
  | .host w content => fetchCoded (.hostCmd w) { s with source := content }
  | .reset => .event s.hardReset
  | .breach b => if s.busy then .refuse (.hostBreach b) else .event s
  | .crcOp w => fetchCoded (.crcOp w) s
  | .txUnit first => fetchCoded (.txUnit first) s

/-- The front of a step. -/
def fetch (s : State) : Fetched :=
  match takeInput s.accepts s.inputs with
  | none => .wait
  | some (i, rest) => deliver i { s with inputs := rest }

/-! ## Placing an instruction where the next step fetches it -/

/-- A received symbol is fetched in a reading state only: where the engine is in none, it is put into AWAITING_START
(notes/assumptions/13.md). -/
def State.makeReading (s : State) : State :=
  if s.state.reading then s else { s with state := .awaitingStart }

/-- The payload of a frame written as one number: bytes 3 to 130, the first byte lowest. -/
def framePayload (w : Nat) : List Byte :=
  (List.range Config.blockSize).map fun k => BitVec.ofNat 8 (w / 2 ^ (8 * (k + 3)))

/-- A frame's PAYLOAD stands in PBUF (R84): where PBUF has not been loaded, it takes the payload of the word
(notes/assumptions/13.md). -/
def State.makeLoaded (w : Nat) (s : State) : State :=
  match payload s with
  | some _ => s
  | none => { s with pbuf := Memory.ofBytes .pbuf (framePayload w) }

/-- A unit is fetched at a step boundary only: a blocked write is given up (notes/assumptions/13.md). -/
def State.atBoundary (s : State) : State :=
  { s with blockedWrite := none }

/-- One input more, in front of the others. -/
def State.withInput (i : Input) (s : State) : State :=
  { s with inputs := i :: s.inputs }

/-- The state whose next step fetches this unit. -/
def State.offer (c : Coded) (w : Nat) (s : State) : State :=
  match c with
  | .rxSymbol b => s.atBoundary.makeReading.withInput (.rx (.byte b))
  | .rxEvent => s.atBoundary.makeReading.withInput (.rx .rxfail)
  | .txUnit first =>
    if first = Wire.soh then (s.atBoundary.makeLoaded w).withInput (.txUnit first)
    else s.atBoundary.withInput (.txUnit first)
  | .hostCmd hw => s.atBoundary.withInput (.host hw s.source)
  | .crcOp cw => s.atBoundary.withInput (.crcOp cw)

end Sys2Proof.Machine
end

