-- ==== Sys2Proof/Machine/Step.lean ====
section
/-! DEFINITION. One atomic step (R14): the next input and all its row prescribes. Where the transport does not answer a
write at once, the step stops in the write and a later step runs its rest (R214). With no input to take the engine waits:
nothing changes (R214), for ever if nothing comes (R243). -/

namespace Sys2Proof.Machine

def step (s : State) : Host.Outcome State Fault Refusal :=
  match fetch s with
  | .wait => .next s
  | .run i t => exec i t
  | .resume w a t => (resumeWrite w a t).outcome
  | .event t => .next t
  | .refuse r => .refused r

/-- `s` with the unit that a word of spec/opcode_table.json lays out stored where `step` fetches next; `s` itself where
the decoder knows no such unit. -/
def State.withFetchWord (s : State) (nbits w : Nat) : State :=
  match codedOfTableWord nbits w with
  | .ok c => s.offer c w
  | .error _ => s

end Sys2Proof.Machine
end

