-- ==== Sys2Proof/Safety.lean ====
section
/-! DEFINITION. The vocabulary of the claims: the effects of a rule written as one state, the classes of inputs and
answers, and the invariant `Inv` that every step keeps. -/

namespace Sys2Proof.Machine

/-! ## Block contents -/

/-- R64, R170, R172: the payload of the block that starts at source offset `pos`: the source bytes up to the end of the
file, then SUB filler, 128 bytes in all. -/
@[irreducible] def blockPayload (source : Memory) (fileSize pos : Nat) : List Byte :=
  (List.range Config.blockSize).map fun k =>
    if pos + k < fileSize then (source.read .src (pos + k)).getD 0 else Wire.sub

/-- R170, R171: the state after `LoadBlock()`. -/
def State.loaded (s : State) : State :=
  let bytes := blockPayload s.source s.fileSize.toNat s.srcPos.toNat
  { s with
    chunkLen := chunkLength s.fileSize s.srcPos
    pbuf := Memory.ofBytes .pbuf bytes
    crcR := computeCRC16 bytes
    blockCrc := computeCRC16 bytes }

/-- R176: the two outputs of a block attempt whose write is answered `ok`, for a frame `bytes`. -/
def State.sentFrame (bytes : List Byte) (s : State) : State :=
  { s with
    txAnswers := s.txAnswers.tail
    outputs := s.outputs ++ [.progress s.blockIndex s.totalBlocks, .wire bytes] }

/-- R176, R214: a block attempt that is blocked in the write of its frame `bytes`. -/
def State.blockedInFrame (bytes : List Byte) (s : State) : State :=
  { s with
    txAnswers := s.txAnswers.tail
    outputs := s.outputs ++ [.progress s.blockIndex s.totalBlocks]
    blockedWrite := some { bytes := bytes, rest := [] } }

/-- R178: the write of RUN, where `runFlag` is set. -/
def State.runUnits (s : State) : List (List Byte) :=
  if s.runFlag then [[s.runByte]] else []

/-- R178: the writes of a termination: EOT, and RUN where `runFlag` is set. -/
def State.terminationUnits (s : State) : List (List Byte) :=
  [Wire.eot] :: s.runUnits

/-- R142, R178: the state after `EnterTermination()` with every write answered `ok`. -/
def State.terminated (s : State) : State :=
  { s with
    state := .done
    result := .success
    txAnswers := s.txAnswers.drop s.terminationUnits.length
    outputs := s.outputs ++ s.terminationUnits.map .wire }

/-! ## Classes of inputs and answers -/

/-- The next `n` writes are answered `ok` (R29, R94). -/
def State.writesOk (n : Nat) (s : State) : Bool :=
  (s.txAnswers.take n).all fun a => a == .ok

/-- An answer of the transport in the sense of R29: `ok` or `txfail`. -/
def TxAnswer.isAnswer : TxAnswer → Bool
  | .ok => true
  | .txfail _ => true
  | .cutByReset _ => false
  | .pending => false

/-- The write is cut by reset (R231). -/
def TxAnswer.cuts : TxAnswer → Bool
  | .ok => false
  | .txfail _ => false
  | .cutByReset _ => true
  | .pending => false

/-- No reset cuts a write, whether its answer stands in the queue or comes late. -/
abbrev NoCut (s : State) : Prop :=
  (∀ a ∈ s.txAnswers, a.cuts = false) ∧ ∀ a, Input.tx a ∈ s.inputs → a.cuts = false

/-- The step from `s` to `t` takes answers from the queue, the last of them `a` and those before it `ok`: its last write
is answered `a`. -/
def QueueUsed (a : TxAnswer) (s t : State) : Prop :=
  ∃ n, (s.txAnswers.take n).all (fun b => b == .ok) = true ∧ s.txAnswers[n]? = some a ∧
    t.txAnswers = s.txAnswers.drop (n + 1)

/-- The last write of the step from `s` to `t` is answered `a`, from the queue, or by the late answer that a blocked
write takes (R214). -/
def AnswerUsed (a : TxAnswer) (s t : State) : Prop :=
  QueueUsed a s t ∨
  s.blockedWrite ≠ none ∧ takeInput s.accepts s.inputs = some (.tx a, t.inputs) ∧ t.txAnswers = s.txAnswers

/-- An input of the world outside the block (R11). CRGEN operations and transmitter units are internal (R116). -/
def Input.external : Input → Bool
  | .rx _ => true
  | .tx _ => true
  | .host _ _ => true
  | .reset => true
  | .breach _ => true
  | .crcOp _ => false
  | .txUnit _ => false

/-- The answers the transport holds for reads to come (R46). -/
def rxPending (inputs : List Input) : List RxAnswer :=
  inputs.filterMap fun
    | .rx a => some a
    | .tx _ => none
    | .host _ _ => none
    | .reset => none
    | .breach _ => none
    | .crcOp _ => none
    | .txUnit _ => none

/-- The source content an input carries is in canonical form. -/
def Input.wf : Input → Bool
  | .rx _ => true
  | .tx _ => true
  | .host _ content => content.wf .src
  | .reset => true
  | .breach _ => true
  | .crcOp _ => true
  | .txUnit _ => true

/-! ## The invariant -/

/-- R21, R87: which `result` goes with which `state`. -/
abbrev StateResultPair (s : State) : Prop :=
  (s.state = .idle → s.result = .none) ∧
  (s.state = .awaitingStart → s.result = .none) ∧
  (s.state = .sendingBlock → s.result = .none) ∧
  (s.state = .awaitingTerminationAck → s.result = .none) ∧
  (s.state = .done → s.result = .success) ∧
  (s.state = .failed → s.result ∈ [SessionResult.sourceNotFound, .sourceOpenFailed, .transportFailure,
    .retryLimitExceeded]) ∧
  (s.state = .cancelled → s.result = .cancelledByPeer)

/-- R48: no counter overflows. -/
abbrev CountersBounded (s : State) : Prop :=
  s.srcPos.toNat ≤ s.fileSize.toNat ∧
  s.totalBlocks.toNat ≤ 2 ^ 25 ∧
  s.blockIndex.toNat ≤ s.totalBlocks.toNat + 1 ∧
  s.currentTry.toNat ≤ s.maxRetryL.toNat

/-- R131: the session registers before the handshake. -/
abbrev AwaitingFacts (s : State) : Prop :=
  s.state = .awaitingStart →
    s.totalBlocks = blockCount s.fileSize ∧ s.blockNumber = 1 ∧ s.currentTry = 0 ∧ s.srcPos = 0 ∧
    s.chunkLen = 0 ∧ s.blockIndex = 0 ∧ s.eofReached = false

/-- R24, R35, R36, R37, R38, R40, R41, R172: the session registers while block `blockIndex` is being sent. -/
abbrev SendingFacts (s : State) : Prop :=
  s.state = .sendingBlock →
    s.totalBlocks = blockCount s.fileSize ∧
    1 ≤ s.blockIndex.toNat ∧
    s.blockNumber = s.blockIndex.setWidth 8 ∧
    s.srcPos.toNat = Config.blockSize * (s.blockIndex.toNat - 1) ∧
    s.srcPos.toNat < s.fileSize.toNat ∧
    s.chunkLen = chunkLength s.fileSize s.srcPos ∧
    s.eofReached = false ∧
    payload s = some (blockPayload s.source s.fileSize.toNat s.srcPos.toNat) ∧
    s.blockCrc = computeCRC16 (blockPayload s.source s.fileSize.toNat s.srcPos.toNat)

/-- R21, R142: AWAITING_TERMINATION_ACK is held only while a write of the termination is blocked, with DONE still to
come. -/
abbrev TerminationPending (s : State) : Prop :=
  s.state = .awaitingTerminationAck →
    ∃ w, s.blockedWrite = some w ∧ w.rest.getLast? = some .enterDone

/-- R14, R176, R178, R214: what a blocked write can be, and what is left of its step. -/
abbrev BlockedFacts (s : State) : Prop :=
  (s.blockedWrite = none → s.state ≠ .awaitingTerminationAck) ∧
  ∀ w, s.blockedWrite = some w →
    (s.state ≠ .awaitingTerminationAck ∧ w.rest = [] ∧
      (frame s = some w.bytes ∨ w.bytes = [Wire.eot] ∨ w.bytes = [s.runByte])) ∨
    (s.state = .awaitingTerminationAck ∧ w.rest = [.sendRun, .enterDone] ∧ w.bytes = [Wire.eot]) ∨
    (s.state = .awaitingTerminationAck ∧ w.rest = [.enterDone] ∧ s.runFlag = true ∧ w.bytes = [s.runByte])

/-- Every byte space of a state is in canonical form. -/
abbrev MemoriesCanonical (s : State) : Prop :=
  s.pbuf.wf .pbuf = true ∧ s.source.wf .src = true ∧ ∀ i ∈ s.inputs, i.wf = true

/-- What holds between two steps. -/
abbrev Inv (s : State) : Prop :=
  StateResultPair s ∧ CountersBounded s ∧ AwaitingFacts s ∧ SendingFacts s ∧ BlockedFacts s ∧ MemoriesCanonical s

/-! ## What the outside world can tell apart -/

/-- Two states that agree on everything but the registers that hold no value in an idle-like state (R49, R50). -/
abbrev SameOutside (s t : State) : Prop :=
  s.state = t.state ∧ s.result = t.result ∧ s.blockedWrite = t.blockedWrite ∧ s.runByte = t.runByte ∧
  s.source = t.source ∧ s.inputs = t.inputs ∧ s.txAnswers = t.txAnswers ∧ s.outputs = t.outputs

end Sys2Proof.Machine
end

