-- ==== Sys2Proof/Certificates/Slice0/Obligations.lean ====
section
/-! DEFINITION. The statements about VD-XCORE, from the numbered rules of spec/. Each docstring names the rule. A
statement whose title says "the model" rests on a log entry of notes/assumptions. -/

section
open Sys2Proof Sys2Proof.Machine

/-! ## Vocabulary of the statements -/

/-- Instructions run one after another by `exec`, up to the first that has no next state. -/
def Sys2Proof.Machine.execAll : List Instr → State → Host.Outcome State Fault Refusal
  | [], s => .next s
  | i :: is, s =>
    match exec i s with
    | .next t => execAll is t
    | .fault f => .fault f
    | .refused r => .refused r

/-- Two outcomes that the outside world cannot tell apart. -/
def Sys2Proof.Machine.SameRun : Host.Outcome State Fault Refusal → Host.Outcome State Fault Refusal → Prop
  | .next s, .next t => SameOutside s t
  | .fault f, .fault g => f = g
  | .refused r, .refused q => r = q
  | _, _ => False

/-- The input in which the peer sends the byte `b`. -/
def Sys2Proof.Machine.peerSends (b : Byte) : Input :=
  .rx (.byte b)

/-- The two outputs of the first attempt at the block of index `k + 1` of a file of `total` blocks. -/
def Sys2Proof.Machine.blockOutputs (source : Memory) (fileSize : Nat) (total : Word32) (k : Nat) : List Output :=
  let bytes := blockPayload source fileSize (Config.blockSize * k)
  [.progress (BitVec.ofNat 32 (k + 1)) total, .wire (frameBytes (BitVec.ofNat 8 (k + 1)) bytes (computeCRC16 bytes))]

/-! ## Reset and the status ports -/

/-- R20, R22, R23, R42, R49, R62: what the spec says reset leaves: IDLE, no result, not busy, `crc_r` zero, no byte of
PBUF written. The values of the other registers are the model's (log entry 1) and are not stated. No write is blocked
(log entry 6). -/
def Obligations.ResetLeavesIdle : Prop :=
  State.reset.state = .idle ∧ State.reset.result = .none ∧ State.reset.busy = false ∧ State.reset.crcR = 0x0000 ∧
  (∀ i, pbufRead State.reset i = none) ∧ State.reset.statusPorts = { state := 0, result := 0, busy := false } ∧
  State.reset.blockedWrite = none

/-- R231: reset as the next event, in any state, one blocked in a write among them; reset in the middle of a frame's
write, which leaves a truncated frame on the wire; and reset that cuts a write the engine is blocked in. What the model
keeps across reset besides (log entry 7) is what lies outside the block. -/
def Obligations.ResetEndsSession : Prop :=
  (∀ (s : State) (rest : List Input), s.inputs = .reset :: rest →
    ∃ t, step s = .next t ∧ t.state = .idle ∧ t.result = .none ∧ t.crcR = 0x0000 ∧ (∀ i, pbufRead t i = none) ∧
      t.blockedWrite = none ∧ t.outputs = s.outputs ∧ t.inputs = rest ∧ t.txAnswers = s.txAnswers ∧
      t.source = s.source ∧ t.runByte = s.runByte) ∧
  (∀ (s : State) (bytes : List Byte) (k : Nat), payload s = some bytes → s.nextAnswer = .cutByReset k →
    ∃ t, exec .txFrame s = .next t ∧ t.state = .idle ∧ t.result = .none ∧ t.inputs = s.inputs ∧
      t.outputs = s.outputs ++ [.progress s.blockIndex s.totalBlocks,
        .wire ((frameBytes s.blockNumber bytes s.blockCrc).take k)]) ∧
  (∀ (s : State) (w : BlockedWrite) (k : Nat) (rest : List Input), s.blockedWrite = some w →
    s.inputs = .tx (.cutByReset k) :: rest →
    ∃ t, step s = .next t ∧ t.state = .idle ∧ t.result = .none ∧ t.blockedWrite = none ∧ t.inputs = rest ∧
      t.outputs = s.outputs ++ [.wire (w.bytes.take k)])

/-- R21, R23, R86, R87: the codes the host reads and the classes of the states; code 7 is never read. -/
def Obligations.StatusCodes : Prop :=
  (∀ e : EngineState, e.code ≠ 7 ∧
    (e.busy = true ↔ e.code = 1 ∨ e.code = 2 ∨ e.code = 3) ∧
    (e.reading = true ↔ e.code = 1 ∨ e.code = 2) ∧
    (e.terminal = true ↔ e.code = 4 ∨ e.code = 5 ∨ e.code = 6) ∧
    (e.idleLike = true ↔ e.busy = false)) ∧
  (∀ e f : EngineState, e.code = f.code → e = f) ∧
  (∀ r : SessionResult, r.code ≠ 7) ∧
  (∀ r q : SessionResult, r.code = q.code → r = q) ∧
  EngineState.idle.code = 0 ∧ EngineState.awaitingStart.code = 1 ∧ EngineState.sendingBlock.code = 2 ∧
  EngineState.awaitingTerminationAck.code = 3 ∧ EngineState.done.code = 4 ∧ EngineState.failed.code = 5 ∧
  EngineState.cancelled.code = 6 ∧
  SessionResult.none.code = 0 ∧ SessionResult.success.code = 1 ∧ SessionResult.sourceNotFound.code = 2 ∧
  SessionResult.sourceOpenFailed.code = 3 ∧ SessionResult.transportFailure.code = 4 ∧
  SessionResult.retryLimitExceeded.code = 5 ∧ SessionResult.cancelledByPeer.code = 6

/-! ## CRGEN -/

/-- R113: HOLD changes nothing, whatever its data bits. -/
def Obligations.CrcHoldKeepsEverything : Prop :=
  ∀ (d : Byte) (s : State), exec (.crcHold d) s = .next s

/-- R114: CLEAR sets `crc_r` to zero and changes nothing else, whatever its data bits. -/
def Obligations.CrcClearZeroesRunningValue : Prop :=
  ∀ (d : Byte) (s : State), exec (.crcClear d) s = .next { s with crcR := 0x0000 }

/-- R115: UPDATE in the rule's own terms: the low byte of `crc_r` moves up, the high byte serves the index only. -/
def Obligations.CrcUpdateFormula : Prop :=
  ∀ (d : Byte) (s : State), exec (.crcUpdate d) s =
    .next { s with crcR := ((s.crcR.extractLsb' 0 8).setWidth 16 <<< 8) ^^^ romRead (s.crcR.extractLsb' 8 8 ^^^ d) }

/-- R118: the reserved operation is refused. -/
def Obligations.CrcReservedOpRefused : Prop :=
  ∀ (d : Byte) (s : State), exec (.crcRsv d) s = .refused .reservedCrcOp

/-- R120: the ROM is the output of the bit-shifting construction. -/
def Obligations.CrcRomIsConstruction : Prop :=
  ∀ i : Byte, romRead i = crcTableEntry i

/-- R111's checks: four entries, the sum of all 256, and linearity over XOR. -/
def Obligations.CrcRomChecks : Prop :=
  romRead 0x00 = 0x0000 ∧ romRead 0x01 = 0x1021 ∧ romRead 0x80 = 0x9188 ∧ romRead 0xFF = 0x1EF0 ∧
  ((List.range 256).map fun i => (romRead (BitVec.ofNat 8 i)).toNat).sum = 8388480 ∧
  ∀ a b : Byte, romRead (a ^^^ b) = romRead a ^^^ romRead b

/-- R117: CLEAR and one UPDATE per byte leave in `crc_r` the value of the rule's loop, and change nothing else; for no
bytes that value is zero. -/
def Obligations.CrcSequenceComputesFunction : Prop :=
  (∀ (bs : List Byte) (d : Byte) (s : State),
    execAll (.crcClear d :: bs.map .crcUpdate) s = .next { s with
      crcR := bs.foldl (fun (r : Word16) b => ((r.extractLsb' 0 8).setWidth 16 <<< 8) ^^^ romRead (r.extractLsb' 8 8 ^^^ b)) 0x0000 }) ∧
  (∀ bs : List Byte, computeCRC16 bs =
    bs.foldl (fun (r : Word16) b => ((r.extractLsb' 0 8).setWidth 16 <<< 8) ^^^ romRead (r.extractLsb' 8 8 ^^^ b)) 0x0000) ∧
  computeCRC16 [] = 0x0000

/-- R119: residue, zero prefix, linearity, single byte. -/
def Obligations.CrcDerivedProperties : Prop :=
  (∀ bs : List Byte, computeCRC16 (bs ++ [(computeCRC16 bs).extractLsb' 8 8, (computeCRC16 bs).extractLsb' 0 8]) = 0) ∧
  (∀ bs : List Byte, computeCRC16 (0x00 :: bs) = computeCRC16 bs) ∧
  (∀ as bs : List Byte, as.length = bs.length →
    computeCRC16 (List.zipWith (· ^^^ ·) as bs) = computeCRC16 as ^^^ computeCRC16 bs) ∧
  (∀ d : Byte, computeCRC16 [d] = romRead d)

/-! ## Encodings -/

/-- R81, R82, R83: the class of a received byte depends on all 8 bits and on nothing else. -/
def Obligations.ReceivedByteClasses : Prop :=
  ∀ runByte b : Byte,
    (b = 0x43 → decode runByte (.rxSymbol b) = .ok .rxHandshake) ∧
    (b = 0x06 → decode runByte (.rxSymbol b) = .ok .rxAck) ∧
    (b = 0x15 → decode runByte (.rxSymbol b) = .ok .rxNak) ∧
    (b = 0x18 → decode runByte (.rxSymbol b) = .ok .rxCan) ∧
    (b ≠ 0x43 → b ≠ 0x06 → b ≠ 0x15 → b ≠ 0x18 → decode runByte (.rxSymbol b) = .ok (.rxOther b)) ∧
    decode runByte .rxEvent = .ok .rxFail

/-- R89: the fields of `crc_op`, at every value of its 10 bits. -/
def Obligations.CrcWordFields : Prop :=
  ∀ (runByte : Byte) (w : CrcWord),
    (w.getLsbD 1 = false → w.getLsbD 0 = false → decode runByte (.crcOp w) = .ok (.crcHold (w.extractLsb' 2 8))) ∧
    (w.getLsbD 1 = false → w.getLsbD 0 = true → decode runByte (.crcOp w) = .ok (.crcClear (w.extractLsb' 2 8))) ∧
    (w.getLsbD 1 = true → w.getLsbD 0 = false → decode runByte (.crcOp w) = .ok (.crcUpdate (w.extractLsb' 2 8))) ∧
    (w.getLsbD 1 = true → w.getLsbD 0 = true → decode runByte (.crcOp w) = .ok (.crcRsv (w.extractLsb' 2 8)))

/-- R88, R90: the fields of `host_cmd`, at every value of its 43 bits. -/
def Obligations.HostWordFields : Prop :=
  ∀ (runByte : Byte) (w : HostWord),
    (w.extractLsb' 0 2 = 0 → decode runByte (.hostCmd w) =
      .ok (.hostStart .ok (w.getLsbD 2) (w.extractLsb' 3 8) (w.extractLsb' 11 32))) ∧
    (w.extractLsb' 0 2 = 1 → decode runByte (.hostCmd w) =
      .ok (.hostStart .notFound (w.getLsbD 2) (w.extractLsb' 3 8) (w.extractLsb' 11 32))) ∧
    (w.extractLsb' 0 2 = 2 → decode runByte (.hostCmd w) =
      .ok (.hostStart .openFailed (w.getLsbD 2) (w.extractLsb' 3 8) (w.extractLsb' 11 32))) ∧
    (w.extractLsb' 0 2 = 3 → decode runByte (.hostCmd w) =
      .ok (.hostStartRsv (w.getLsbD 2) (w.extractLsb' 3 8) (w.extractLsb' 11 32)))

/-- Words written out from 30_encoding.md, one or more of each format, decode to what they stand for; the frame is the 133
bytes of V-FR-8, its first byte lowest. That a one-byte word 0x01, 0x04 or 0x1D is a transmitted unit and no received
byte is the model's choice (log entry 12): in the machine the interface tells, and a received 0x01 is RX_OTHER (R83). -/
def Obligations.SampleWordsDecode : Prop :=
  decodeTableWord 8 0b01000011 = some .rxHandshake ∧
  decodeTableWord 8 0b00000110 = some .rxAck ∧
  decodeTableWord 8 0b11000011 = some (.rxOther 0xC3) ∧
  decodeTableWord 0 0 = some .rxFail ∧
  decodeTableWord 8 0b00000001 = some .txFrame ∧
  decodeTableWord 1064 0x701E1A1A1A1A1A1A1A1A1A1A1A1A1A1A1A1A1A1A1A1A1A1A1A1A1A1A1A1A1A1A1A1A1A1A1A1A1A1A1A1A1A1A1A1A1A1A1A1A1A1A1A1A1A1A1A1A1A1A1A1A1A1A1A1A1A1A1A1A1A1A1A1A1A1A1A1A1A1A1A1A1A1A1A1A1A1A1A1A1A1A1A1A1A1A1A1A1A1A1A1A1A1A1A1A1A1A1A1A1A1A1A1A1A1A1A1A1A1A1A1A1A1A1A4F4C4C4548FE0101 = some .txFrame ∧
  decodeTableWord 8 0b00000100 = some .txEot ∧
  decodeTableWord 8 0b00011101 = some .txRun ∧
  decodeTableWord 48 0b0000000000000000000000010010110000001010100 =
    some (.hostStart .ok true 10 300) ∧
  decodeTableWord 48 0b0000000000000000000000000000010111111111011 =
    some (.hostStartRsv false 255 5) ∧
  decodeTableWord 16 0b0011000110 = some (.crcUpdate 0x31) ∧
  decodeTableWord 16 0b0000000011 = some (.crcRsv 0)

/-- 30_encoding.md: the decoder reads back every well-formed instruction, at every operand value. -/
def Obligations.DecodeOfEncode : Prop :=
  ∀ (runByte : Byte) (i : Instr), runByteDistinct runByte = true → i.wf = true →
    decode runByte (encode runByte i) = .ok i

/-- 30_encoding.md: no two encodings stand for one instruction, and what the decoder gives is well-formed. -/
def Obligations.EncodeOfDecode : Prop :=
  ∀ (runByte : Byte) (c : Coded) (i : Instr), decode runByte c = .ok i →
    i.wf = true ∧ encode runByte i = c

/-- R93: a TX stream reads back as its units; payload bytes are never taken for a marker. -/
def Obligations.TxStreamReadsBack : Prop :=
  ∀ (runByte : Byte) (units : List TxUnit), runByteDistinct runByte = true → (∀ u ∈ units, u.wf = true) →
    TxUnit.readAll? runByte (units.flatMap fun u => u.bytes runByte).length
      (units.flatMap fun u => u.bytes runByte) = some units

/-- R84: the frame, offset by offset. -/
def Obligations.FrameLayout : Prop :=
  ∀ (s : State) (bytes : List Byte), payload s = some bytes →
    ∃ f, frame s = some f ∧ f.length = 133 ∧
      f[0]? = some 0x01 ∧ f[1]? = some s.blockNumber ∧
      f[2]? = some (255 - s.blockNumber) ∧ 255 - s.blockNumber = s.blockNumber ^^^ 0xFF ∧
      (∀ k, k < 128 → f[3 + k]? = pbufRead s k) ∧
      f[131]? = some (s.blockCrc.extractLsb' 8 8) ∧ f[132]? = some (s.blockCrc.extractLsb' 0 8)

/-- R62: PBUF returns what was written to it, a write leaves every other byte alone, and the canonical form is kept. -/
def Obligations.PbufReturnsWhatIsWritten : Prop :=
  ∀ (s : State) (i : Nat) (v : Byte), i < 128 →
    pbufRead (s.pbufWrite i v) i = some v ∧
    (∀ j, j ≠ i → pbufRead (s.pbufWrite i v) j = pbufRead s j) ∧
    (s.pbuf.wf .pbuf = true → (s.pbufWrite i v).pbuf.wf .pbuf = true)

/-! ## START -/

/-- R131: START in a state that accepts it, for the three codes of `src_status`. -/
def Obligations.StartOpensSession : Prop :=
  ∀ (s : State) (run : Bool) (maxRetry : Byte) (size : Word32), s.state.idleLike = true →
    exec (.hostStart .notFound run maxRetry size) s =
      .next { s with state := .failed, result := .sourceNotFound } ∧
    exec (.hostStart .openFailed run maxRetry size) s =
      .next { s with state := .failed, result := .sourceOpenFailed } ∧
    exec (.hostStart .ok run maxRetry size) s = .next { s with
      fileSize := size
      runFlag := run
      maxRetryL := maxRetry
      totalBlocks := BitVec.ofNat 32 ((size.toNat + 127) / 128)
      blockNumber := 1
      currentTry := 0
      srcPos := 0
      chunkLen := 0
      blockIndex := 0
      eofReached := false
      result := .none
      state := .awaitingStart }

/-- R130: START is refused in a busy state, and with `src_status` = 3. Where both hold R130 gives no order, and the name
of the refusal is then reservedSrcStatus by the model's choice (log entry 25). -/
def Obligations.StartRefusals : Prop :=
  (∀ (s : State) (status : SrcStatus) (run : Bool) (maxRetry : Byte) (size : Word32),
    (exec (.hostStart status run maxRetry size) s = .refused .startWhileBusy ↔ s.state.busy = true)) ∧
  (∀ (s : State) (run : Bool) (maxRetry : Byte) (size : Word32),
    exec (.hostStartRsv run maxRetry size) s = .refused .reservedSrcStatus)

/-! ## The transition table -/

/-- R135: the handshake row: an empty source goes to termination; otherwise block 1 is loaded and attempted. The two
operations it ends in are those of R142 and R176. -/
def Obligations.HandshakeRow : Prop :=
  ∀ s : State, s.state = .awaitingStart → s.pbuf.wf .pbuf = true →
    (s.fileSize = 0 → exec .rxHandshake s = (enterTermination { s with
      blockNumber := 1, srcPos := 0, currentTry := 0, blockIndex := 1, eofReached := true }).outcome) ∧
    (s.fileSize ≠ 0 → exec .rxHandshake s = (sendFrame { s with
      blockNumber := 1
      srcPos := 0
      currentTry := 0
      blockIndex := 1
      eofReached := false
      chunkLen := BitVec.ofNat 8 (min 128 s.fileSize.toNat)
      pbuf := Memory.ofBytes .pbuf (blockPayload s.source s.fileSize.toNat 0)
      crcR := computeCRC16 (blockPayload s.source s.fileSize.toNat 0)
      blockCrc := computeCRC16 (blockPayload s.source s.fileSize.toNat 0)
      state := .sendingBlock }).outcome)

/-- R135 with its writes answered `ok`: where RX_HANDSHAKE completes. -/
def Obligations.HandshakeCompletes : Prop :=
  ∀ s : State, s.state = .awaitingStart → s.pbuf.wf .pbuf = true → s.writesOk 2 = true →
    (s.fileSize = 0 → exec .rxHandshake s = .next { s with
      blockNumber := 1
      srcPos := 0
      currentTry := 0
      blockIndex := 1
      eofReached := true
      state := .done
      result := .success
      txAnswers := s.txAnswers.drop (if s.runFlag then 2 else 1)
      outputs := s.outputs ++ (if s.runFlag then [.wire [0x04], .wire [s.runByte]] else [.wire [0x04]]) }) ∧
    (s.fileSize ≠ 0 → exec .rxHandshake s = .next { s with
      blockNumber := 1
      srcPos := 0
      currentTry := 0
      blockIndex := 1
      eofReached := false
      chunkLen := BitVec.ofNat 8 (min 128 s.fileSize.toNat)
      pbuf := Memory.ofBytes .pbuf (blockPayload s.source s.fileSize.toNat 0)
      crcR := computeCRC16 (blockPayload s.source s.fileSize.toNat 0)
      blockCrc := computeCRC16 (blockPayload s.source s.fileSize.toNat 0)
      state := .sendingBlock
      txAnswers := s.txAnswers.tail
      outputs := s.outputs ++ [.progress 1 s.totalBlocks,
        .wire (frameBytes 1 (blockPayload s.source s.fileSize.toNat 0)
          (computeCRC16 (blockPayload s.source s.fileSize.toNat 0)))] })

/-- R136, R137, R141: the symbols that are ignored, and where. -/
def Obligations.IgnoredSymbolsChangeNothing : Prop :=
  ∀ s : State,
    (s.state = .sendingBlock → exec .rxHandshake s = .next s) ∧
    (s.state = .awaitingStart → exec .rxAck s = .next s ∧ exec .rxNak s = .next s) ∧
    (∀ b : Byte, s.state.reading = true → exec (.rxOther b) s = .next s)

/-- R133 in the model's form (log entry 9): a received symbol given to the engine outside a reading state changes
nothing. -/
def Obligations.UnreadSymbolsChangeNothing : Prop :=
  ∀ s : State, s.state.reading = false →
    exec .rxHandshake s = .next s ∧ exec .rxAck s = .next s ∧ exec .rxNak s = .next s ∧ exec .rxCan s = .next s ∧
    (∀ b : Byte, exec (.rxOther b) s = .next s) ∧ exec .rxFail s = .next s

/-- R138: the ACK row: the registers advance; an exhausted source goes to termination, otherwise the next block is
loaded and attempted. -/
def Obligations.AckRow : Prop :=
  ∀ s : State, s.state = .sendingBlock → s.pbuf.wf .pbuf = true →
    let pos := s.srcPos + s.chunkLen.setWidth 32
    (s.fileSize.toNat ≤ pos.toNat → exec .rxAck s = (enterTermination { s with
      blockNumber := s.blockNumber + 1
      currentTry := 0
      srcPos := pos
      blockIndex := s.blockIndex + 1
      eofReached := true }).outcome) ∧
    (pos.toNat < s.fileSize.toNat → exec .rxAck s = (sendFrame { s with
      blockNumber := s.blockNumber + 1
      currentTry := 0
      srcPos := pos
      blockIndex := s.blockIndex + 1
      chunkLen := BitVec.ofNat 8 (min 128 (s.fileSize.toNat - pos.toNat))
      pbuf := Memory.ofBytes .pbuf (blockPayload s.source s.fileSize.toNat pos.toNat)
      crcR := computeCRC16 (blockPayload s.source s.fileSize.toNat pos.toNat)
      blockCrc := computeCRC16 (blockPayload s.source s.fileSize.toNat pos.toNat) }).outcome)

/-- R138 with its writes answered `ok`: where RX_ACK completes. -/
def Obligations.AckCompletes : Prop :=
  ∀ s : State, s.state = .sendingBlock → s.pbuf.wf .pbuf = true → s.writesOk 2 = true →
    let pos := s.srcPos + s.chunkLen.setWidth 32
    (s.fileSize.toNat ≤ pos.toNat → exec .rxAck s = .next { s with
      blockNumber := s.blockNumber + 1
      currentTry := 0
      srcPos := pos
      blockIndex := s.blockIndex + 1
      eofReached := true
      state := .done
      result := .success
      txAnswers := s.txAnswers.drop (if s.runFlag then 2 else 1)
      outputs := s.outputs ++ (if s.runFlag then [.wire [0x04], .wire [s.runByte]] else [.wire [0x04]]) }) ∧
    (pos.toNat < s.fileSize.toNat → exec .rxAck s = .next { s with
      blockNumber := s.blockNumber + 1
      currentTry := 0
      srcPos := pos
      blockIndex := s.blockIndex + 1
      chunkLen := BitVec.ofNat 8 (min 128 (s.fileSize.toNat - pos.toNat))
      pbuf := Memory.ofBytes .pbuf (blockPayload s.source s.fileSize.toNat pos.toNat)
      crcR := computeCRC16 (blockPayload s.source s.fileSize.toNat pos.toNat)
      blockCrc := computeCRC16 (blockPayload s.source s.fileSize.toNat pos.toNat)
      txAnswers := s.txAnswers.tail
      outputs := s.outputs ++ [.progress (s.blockIndex + 1) s.totalBlocks,
        .wire (frameBytes (s.blockNumber + 1) (blockPayload s.source s.fileSize.toNat pos.toNat)
          (computeCRC16 (blockPayload s.source s.fileSize.toNat pos.toNat)))] })

/-- R139: the NAK row: a spent budget fails the session and transmits nothing; otherwise the retry is counted and the
same frame attempted again. -/
def Obligations.NakRow : Prop :=
  ∀ s : State, s.state = .sendingBlock →
    (s.maxRetryL.toNat ≤ s.currentTry.toNat →
      exec .rxNak s = .next { s with state := .failed, result := .retryLimitExceeded }) ∧
    (s.currentTry.toNat < s.maxRetryL.toNat →
      exec .rxNak s = (sendFrame { s with currentTry := s.currentTry + 1 }).outcome ∧
      frame { s with currentTry := s.currentTry + 1 } = frame s ∧
      (s.currentTry + 1).toNat = s.currentTry.toNat + 1)

/-- R139 with its write answered `ok`: where RX_NAK completes with a retransmission of the identical frame. -/
def Obligations.NakCompletes : Prop :=
  ∀ (s : State) (bytes : List Byte), s.state = .sendingBlock → payload s = some bytes → s.writesOk 1 = true →
    s.currentTry.toNat < s.maxRetryL.toNat →
    exec .rxNak s = .next { s with
      currentTry := s.currentTry + 1
      txAnswers := s.txAnswers.tail
      outputs := s.outputs ++ [.progress s.blockIndex s.totalBlocks,
        .wire (frameBytes s.blockNumber bytes s.blockCrc)] }

/-- R140: one CAN cancels in either reading state; nothing is transmitted. -/
def Obligations.CanCancels : Prop :=
  ∀ s : State, s.state.reading = true →
    exec .rxCan s = .next { s with state := .cancelled, result := .cancelledByPeer }

/-- R143: a failed read fails the session in either reading state, at once; the retry count is untouched. -/
def Obligations.ReadFailureFails : Prop :=
  ∀ s : State, s.state.reading = true →
    exec .rxFail s = .next { s with state := .failed, result := .transportFailure }

/-- R134: the next state of every row of the table, where the transport answers every write (R29); a row that transmits
ends in FAILED (TRANSPORT_FAILURE) only where its last write is answered `txfail`. -/
def Obligations.TransitionTable : Prop :=
  ∀ s : State, (∀ a ∈ s.txAnswers, a.isAnswer = true) →
    (s.state = .awaitingStart →
      (∀ t, exec .rxHandshake s = .next t →
        t.state = .sendingBlock ∧ s.fileSize ≠ 0 ∨ t.state = .done ∧ s.fileSize = 0 ∨
        t.state = .failed ∧ t.result = .transportFailure ∧ ∃ k, QueueUsed (.txfail k) s t) ∧
      (∀ t, exec .rxAck s = .next t → t.state = .awaitingStart) ∧
      (∀ t, exec .rxNak s = .next t → t.state = .awaitingStart) ∧
      (∀ t, exec .rxCan s = .next t → t.state = .cancelled) ∧
      (∀ t b, exec (.rxOther b) s = .next t → t.state = .awaitingStart) ∧
      (∀ t, exec .rxFail s = .next t → t.state = .failed ∧ t.result = .transportFailure)) ∧
    (s.state = .sendingBlock →
      (∀ t, exec .rxHandshake s = .next t → t.state = .sendingBlock) ∧
      (∀ t, exec .rxAck s = .next t →
        t.state = .sendingBlock ∧ t.srcPos.toNat < t.fileSize.toNat ∨
        t.state = .done ∧ t.fileSize.toNat ≤ t.srcPos.toNat ∨
        t.state = .failed ∧ t.result = .transportFailure ∧ ∃ k, QueueUsed (.txfail k) s t) ∧
      (∀ t, exec .rxNak s = .next t →
        t.state = .sendingBlock ∧ s.currentTry.toNat < s.maxRetryL.toNat ∨
        t.state = .failed ∧ t.result = .retryLimitExceeded ∧ s.maxRetryL.toNat ≤ s.currentTry.toNat ∨
        t.state = .failed ∧ t.result = .transportFailure ∧ ∃ k, QueueUsed (.txfail k) s t) ∧
      (∀ t, exec .rxCan s = .next t → t.state = .cancelled) ∧
      (∀ t b, exec (.rxOther b) s = .next t → t.state = .sendingBlock) ∧
      (∀ t, exec .rxFail s = .next t → t.state = .failed ∧ t.result = .transportFailure))

/-- R133, R46, R206: in IDLE and in a terminal state nothing is read and nothing is written to the transport; no
register changes except by START or reset. No session leaves a blocked write behind there (log entries 6 and 17). -/
def Obligations.IdleChangesNothing : Prop :=
  ∀ s t : State, s.state.idleLike = true → s.blockedWrite = none → (∀ i ∈ s.inputs, i.external = true) →
    step s = .next t →
    t.outputs = s.outputs ∧ rxPending t.inputs = rxPending s.inputs ∧
    ((∀ w m rest, takeInput s.accepts s.inputs ≠ some (.host w m, rest)) →
      (∀ rest, takeInput s.accepts s.inputs ≠ some (.reset, rest)) →
      t = { s with inputs := t.inputs, txAnswers := t.txAnswers })

/-! ## Loading, sending, failing -/

/-- R170, R171: `LoadBlock()` on a canonical PBUF: the chunk, the filler and the CRC, and nothing else changes. -/
def Obligations.LoadBlockFillsPayload : Prop :=
  ∀ s : State, s.srcPos.toNat < s.fileSize.toNat → s.pbuf.wf .pbuf = true →
    ∃ t bytes, loadBlock s = .go t ∧
      t = { s with chunkLen := t.chunkLen, pbuf := t.pbuf, crcR := t.crcR, blockCrc := t.blockCrc } ∧
      t.chunkLen.toNat = min 128 (s.fileSize.toNat - s.srcPos.toNat) ∧ 1 ≤ t.chunkLen.toNat ∧
      (∀ k, k < t.chunkLen.toNat → pbufRead t k = srcRead s (s.srcPos.toNat + k) ∧
        (pbufRead t k).isSome = true) ∧
      (∀ k, t.chunkLen.toNat ≤ k → k < 128 → pbufRead t k = some 0x1A) ∧
      t.pbuf.wf .pbuf = true ∧
      payload t = some bytes ∧ t.crcR = computeCRC16 bytes ∧ t.blockCrc = computeCRC16 bytes

/-- R176: one block attempt: the progress event, then the frame, or a strict prefix of it and the failure. TX_FRAME as an
instruction of its own is the model's reading of the table's row (log entry 18), and this is where it completes. -/
def Obligations.BlockAttempt : Prop :=
  ∀ (s : State) (bytes : List Byte), payload s = some bytes →
    (s.nextAnswer = .ok → exec .txFrame s = .next { s with
      txAnswers := s.txAnswers.tail
      outputs := s.outputs ++ [.progress s.blockIndex s.totalBlocks,
        .wire (frameBytes s.blockNumber bytes s.blockCrc)] }) ∧
    (∀ k, s.nextAnswer = .txfail k → ∃ d, d <+: frameBytes s.blockNumber bytes s.blockCrc ∧ d.length ≤ 132 ∧
      exec .txFrame s = .next { s with
        state := .failed
        result := .transportFailure
        txAnswers := s.txAnswers.tail
        outputs := s.outputs ++ [.progress s.blockIndex s.totalBlocks, .wire d] })

/-- R62, R49: a frame over a PBUF byte that no loader has written since reset is a fault. -/
def Obligations.UnwrittenPayloadFaults : Prop :=
  ∀ (s : State) (k : Nat), k < 128 → pbufRead s k = none → exec .txFrame s = .fault .pbufUnwritten

/-- R178: the two units of a termination, each one write, and the failure of either. TX_EOT and TX_RUN as instructions of
their own, which end no session, are the model's reading of the table's rows (log entry 18), and this is where they
complete. -/
def Obligations.TerminationUnits : Prop :=
  ∀ s : State,
    (s.nextAnswer = .ok → exec .txEot s = .next { s with
      txAnswers := s.txAnswers.tail, outputs := s.outputs ++ [.wire [0x04]] }) ∧
    (∀ k, s.nextAnswer = .txfail k → exec .txEot s = .next { s with
      state := .failed, result := .transportFailure
      txAnswers := s.txAnswers.tail, outputs := s.outputs ++ [.wire []] }) ∧
    (s.runFlag = false → exec .txRun s = .next s) ∧
    (s.runFlag = true → s.nextAnswer = .ok → exec .txRun s = .next { s with
      txAnswers := s.txAnswers.tail, outputs := s.outputs ++ [.wire [s.runByte]] }) ∧
    (∀ k, s.runFlag = true → s.nextAnswer = .txfail k → exec .txRun s = .next { s with
      state := .failed, result := .transportFailure
      txAnswers := s.txAnswers.tail, outputs := s.outputs ++ [.wire []] }) ∧
    sendTermination s = (sendEot s).andThen .sendRun

/-- R142: `EnterTermination()` ends in DONE with SUCCESS and reads no acknowledgement; a failed EOT or RUN ends it in
FAILED instead, with EOT delivered in the second case. -/
def Obligations.TerminationOutcomes : Prop :=
  ∀ s : State,
    (s.writesOk 2 = true → (enterTermination s).outcome = .next { s with
      state := .done
      result := .success
      txAnswers := s.txAnswers.drop (if s.runFlag then 2 else 1)
      outputs := s.outputs ++ (if s.runFlag then [.wire [0x04], .wire [s.runByte]] else [.wire [0x04]]) }) ∧
    (∀ k, s.nextAnswer = .txfail k → (enterTermination s).outcome = .next { s with
      state := .failed
      result := .transportFailure
      txAnswers := s.txAnswers.tail
      outputs := s.outputs ++ [.wire []] }) ∧
    (∀ k, s.runFlag = true → s.nextAnswer = .ok → s.txAnswers.tail.headD .ok = .txfail k →
      (enterTermination s).outcome = .next { s with
        state := .failed
        result := .transportFailure
        txAnswers := s.txAnswers.drop 2
        outputs := s.outputs ++ [.wire [0x04], .wire []] })

/-- R29: `ok` delivers every byte in order; `txfail` delivers a prefix of 0 to len(s) − 1 bytes; and each such prefix is
what `TxWrite` delivers for some `txfail` answer, in every state. -/
def Obligations.WriteDelivery : Prop :=
  ∀ (bs : List Byte) (s : State), bs ≠ [] →
    (s.nextAnswer = .ok → txWrite bs s = .go { s with
      txAnswers := s.txAnswers.tail, outputs := s.outputs ++ [.wire bs] }) ∧
    (∀ k, s.nextAnswer = .txfail k → ∃ d, d <+: bs ∧ d.length < bs.length ∧ txWrite bs s = .ended { s with
      state := .failed, result := .transportFailure
      txAnswers := s.txAnswers.tail, outputs := s.outputs ++ [.wire d] }) ∧
    (∀ d, d <+: bs → d.length < bs.length → ∃ k, ∀ u : State, u.nextAnswer = .txfail k →
      txWrite bs u = .ended { u with
        state := .failed, result := .transportFailure
        txAnswers := u.txAnswers.tail, outputs := u.outputs ++ [.wire d] })

/-- R204: a write failure after an ACK leaves what came before it done: block number and source position advanced, the
next block loaded, the progress event emitted, and only a strict prefix of the frame on the wire. -/
def Obligations.FailureIsPrecise : Prop :=
  ∀ (s : State) (k : Nat), s.state = .sendingBlock → s.pbuf.wf .pbuf = true → s.nextAnswer = .txfail k →
    let pos := s.srcPos + s.chunkLen.setWidth 32
    let bytes := blockPayload s.source s.fileSize.toNat pos.toNat
    pos.toNat < s.fileSize.toNat →
    ∃ d, d <+: frameBytes (s.blockNumber + 1) bytes (computeCRC16 bytes) ∧ d.length ≤ 132 ∧
      exec .rxAck s = .next { s with
        blockNumber := s.blockNumber + 1
        currentTry := 0
        srcPos := pos
        blockIndex := s.blockIndex + 1
        chunkLen := BitVec.ofNat 8 (min 128 (s.fileSize.toNat - pos.toNat))
        pbuf := Memory.ofBytes .pbuf bytes
        crcR := computeCRC16 bytes
        blockCrc := computeCRC16 bytes
        state := .failed
        result := .transportFailure
        txAnswers := s.txAnswers.tail
        outputs := s.outputs ++ [.progress (s.blockIndex + 1) s.totalBlocks, .wire d] }

/-- R214, R14, in the model's form (log entry 6): a write that has no answer yet blocks. No register of the block
changes; the write and what is left of its step are held, whether the write is a frame's, EOT's or RUN's, in a unit, in
the NAK row, in a block attempt of the handshake and ACK rows or in a termination. -/
def Obligations.UnansweredWriteWaits : Prop :=
  ∀ s : State,
    (∀ bs : List Byte, s.nextAnswer = .pending → txWrite bs s = .waiting { s with
      txAnswers := s.txAnswers.tail, blockedWrite := some { bytes := bs, rest := [] } }) ∧
    (∀ bytes, s.nextAnswer = .pending → payload s = some bytes →
      let blocked (u : State) : State := { u with
        txAnswers := s.txAnswers.tail
        outputs := s.outputs ++ [.progress s.blockIndex s.totalBlocks]
        blockedWrite := some { bytes := frameBytes s.blockNumber bytes s.blockCrc, rest := [] } }
      sendFrame s = .waiting (blocked s) ∧ exec .txFrame s = .next (blocked s) ∧
      (s.state = .sendingBlock → s.currentTry.toNat < s.maxRetryL.toNat →
        exec .rxNak s = .next (blocked { s with currentTry := s.currentTry + 1 }))) ∧
    (s.nextAnswer = .pending → exec .txEot s = .next { s with
      txAnswers := s.txAnswers.tail, blockedWrite := some { bytes := [0x04], rest := [] } }) ∧
    (s.nextAnswer = .pending → s.runFlag = true → exec .txRun s = .next { s with
      txAnswers := s.txAnswers.tail, blockedWrite := some { bytes := [s.runByte], rest := [] } }) ∧
    (s.nextAnswer = .pending → enterTermination s = .waiting { s with
      state := .awaitingTerminationAck
      txAnswers := s.txAnswers.tail
      blockedWrite := some { bytes := [0x04], rest := [.sendRun, .enterDone] } }) ∧
    (s.runFlag = true → s.nextAnswer = .ok → s.txAnswers.tail.headD .ok = .pending →
      enterTermination s = .waiting { s with
        state := .awaitingTerminationAck
        txAnswers := s.txAnswers.drop 2
        outputs := s.outputs ++ [.wire [0x04]]
        blockedWrite := some { bytes := [s.runByte], rest := [.enterDone] } })

/-- R14, R205, R214, in the model's form (log entry 6): a late answer costs nothing. Where an instruction blocks in a
write whose answer `a` comes next, the two steps together do what the instruction does with `a` at once. -/
def Obligations.LateAnswerSameOutcome : Prop :=
  ∀ (i : Instr) (s t : State) (a : TxAnswer) (earlier later : List TxAnswer) (rest : List Input),
    s.blockedWrite = none → (∀ b ∈ earlier, b = .ok) →
    exec i { s with txAnswers := earlier ++ .pending :: later } = .next t → t.blockedWrite ≠ none →
    step { t with inputs := .tx a :: rest } =
      exec i { s with txAnswers := earlier ++ a :: later, inputs := rest }

/-! ## Steps -/

/-- R44, R132, R214, in the model's form (log entry 3: one list of inputs): when the next input is a unit that decodes to
`i`, the step is `exec i` with that input consumed; a START, whatever its status, also presents its source (log entry
21); CRGEN operations and transmitter units come as inputs of their own (log entry 17); and an answer to the write the
engine is blocked in runs the rest of that step (log entry 6). -/
def Obligations.StepRunsDecodedInput : Prop :=
  ∀ (s : State) (i : Instr) (rest : List Input),
    (∀ a, s.state.reading = true → s.blockedWrite = none → s.inputs = .rx a :: rest →
      decode s.runByte a.coded = .ok i → step s = exec i { s with inputs := rest }) ∧
    (∀ w m, takeInput s.accepts s.inputs = some (.host w m, rest) → decode s.runByte (.hostCmd w) = .ok i →
      step s = exec i { s with inputs := rest, source := m }) ∧
    (∀ w, takeInput s.accepts s.inputs = some (.crcOp w, rest) → decode s.runByte (.crcOp w) = .ok i →
      step s = exec i { s with inputs := rest }) ∧
    (∀ b, takeInput s.accepts s.inputs = some (.txUnit b, rest) → decode s.runByte (.txUnit b) = .ok i →
      step s = exec i { s with inputs := rest }) ∧
    (∀ w a, s.blockedWrite = some w → takeInput s.accepts s.inputs = some (.tx a, rest) →
      step s = (resumeWrite w a { s with inputs := rest }).outcome)

/-- R214, R205, R243: with nothing to take, whether the engine reads, is blocked in a write or waits for START, it waits
and nothing changes; a byte that arrives meanwhile stays. And a blocked write is woken only by the transport's answer: no
other input but reset changes anything beside the list of inputs. -/
def Obligations.WaitChangesNothing : Prop :=
  ∀ s : State,
    (s.state.reading = true → s.inputs = [] → step s = .next s) ∧
    (s.state.reading = false ∨ s.blockedWrite ≠ none → (∀ i ∈ s.inputs, ∃ a, i = .rx a) → step s = .next s) ∧
    (∀ t, s.blockedWrite ≠ none → step s = .next t →
      (∀ a rest, takeInput s.accepts s.inputs ≠ some (.tx a, rest)) →
      (∀ rest, takeInput s.accepts s.inputs ≠ some (.reset, rest)) → t = { s with inputs := t.inputs })

/-- R240: a breach of a host duty during a session, a START while busy, a START with `src_status` = 3 and a `crc_op` of
0b11 are refused when they come next. That breaches and CRGEN operations come as inputs (log entries 16 and 17), and that
a START with both faults is refused for its status (log entry 25), is the model's choice. -/
def Obligations.MeaninglessEventsRefused : Prop :=
  ∀ (s : State) (rest : List Input),
    (∀ b, s.state.busy = true → s.inputs = .breach b :: rest → step s = .refused (.hostBreach b)) ∧
    (∀ w m, s.state.busy = true → w.extractLsb' 0 2 ≠ 3 → s.inputs = .host w m :: rest →
      step s = .refused .startWhileBusy) ∧
    (∀ w m, s.state.busy = true ∨ s.blockedWrite = none → w.extractLsb' 0 2 = 3 → s.inputs = .host w m :: rest →
      step s = .refused .reservedSrcStatus) ∧
    (∀ w, s.blockedWrite = none → w.extractLsb' 0 2 = 3 → s.inputs = .crcOp w :: rest →
      step s = .refused .reservedCrcOp)

/-! ## Rules about every step -/

/-- The invariant holds at reset. Its counter bounds there rest on the model's reset values (log entry 1). -/
def Obligations.ResetMeetsInv : Prop :=
  Inv State.reset

/-- R14, R21, R26, R35, R48, R87, R172: every step keeps the invariant: `result` goes with `state`, the counters stay in
their bounds, while a block is being sent its number, offset, length, payload and CRC are those of its index, and a
blocked write is the frame, EOT or RUN with the rest of its row. -/
def Obligations.StepKeepsInv : Prop :=
  ∀ s t : State, Inv s → step s = .next t → Inv t

/-- R14, R21, R142: no step boundary holds AWAITING_TERMINATION_ACK. The model stands in it only while a write of the
termination is blocked, with DONE still to come (log entry 6). -/
def Obligations.TerminationAckNeverHeld : Prop :=
  ∀ s t : State, TerminationPending s → step s = .next t →
    TerminationPending t ∧ (t.blockedWrite = none → t.state ≠ .awaitingTerminationAck)

/-- R7, R27, R30, R33, R34, R39: what is constant for a session: no step of a busy engine changes it, where no reset
comes. RUN_BYTE never changes. -/
def Obligations.SessionConstants : Prop :=
  ∀ s t : State, step s = .next t →
    t.runByte = s.runByte ∧
    (s.state.busy = true → NoCut s → (∀ rest, takeInput s.accepts s.inputs ≠ some (.reset, rest)) →
      t.fileSize = s.fileSize ∧ t.maxRetryL = s.maxRetryL ∧ t.totalBlocks = s.totalBlocks ∧
      t.runFlag = s.runFlag ∧ t.source = s.source)

/-- R69, R72: what is on the wire and on the progress sink stays, in order; a step only adds to it. -/
def Obligations.OutputsOnlyGrow : Prop :=
  ∀ s t : State, step s = .next t → s.outputs <+: t.outputs

/-- R14, R32, R177, R179: what one step of R14 of an engine in reach transmits: nothing; one progress event and one write
of at most a whole frame, for the next block with a fresh retry count or for the same block with one retry more; or the
writes of a termination, with no progress event. -/
def Obligations.OneAttemptPerStep : Prop :=
  ∀ s t : State, Inv s → s.blockedWrite = none → (∀ i ∈ s.inputs, i.external = true) →
    (∀ a ∈ s.txAnswers, a.isAnswer = true) → step s = .next t →
    t.outputs = s.outputs ∨
    (∃ d, t.outputs = s.outputs ++ [.progress t.blockIndex s.totalBlocks, .wire d] ∧ d.length ≤ 133 ∧
      (t.blockIndex = s.blockIndex + 1 ∧ t.currentTry = 0 ∨
        t.blockIndex = s.blockIndex ∧ t.currentTry = s.currentTry + 1)) ∨
    (∃ units ∈ [[[]], [[0x04]], [[0x04], []], [[0x04], [s.runByte]]], t.outputs = s.outputs ++ units.map .wire)

/-- R200, R201: each outcome of a session in a reading state comes from its cause and from nothing else;
TRANSPORT_FAILURE from a read of this step that failed, or from its last write, answered `txfail`. -/
def Obligations.OutcomesHaveTheirCauses : Prop :=
  ∀ s t : State, s.state.reading = true → s.result = .none → s.blockedWrite = none → step s = .next t →
    (t.result = .success → t.state = .done ∧ s.fileSize.toNat ≤ t.srcPos.toNat ∧
      t.outputs = s.outputs ++ (if s.runFlag then [.wire [0x04], .wire [s.runByte]] else [.wire [0x04]])) ∧
    (t.result = .transportFailure → t.state = .failed ∧
      (s.inputs = .rx .rxfail :: t.inputs ∧ t.outputs = s.outputs ∨ ∃ k, QueueUsed (.txfail k) s t)) ∧
    (t.result = .retryLimitExceeded → t.state = .failed ∧ s.state = .sendingBlock ∧
      s.maxRetryL.toNat ≤ s.currentTry.toNat ∧ s.inputs = peerSends 0x15 :: t.inputs ∧ t.outputs = s.outputs) ∧
    (t.result = .cancelledByPeer → t.state = .cancelled ∧ s.inputs = peerSends 0x18 :: t.inputs ∧
      t.outputs = s.outputs) ∧
    t.result ≠ .sourceNotFound ∧ t.result ≠ .sourceOpenFailed

/-- R42, R116, R171: no input of the outside world moves `crc_r` or `blockCrc` except by a block load, on a handshake or
an ACK that leaves source to send, which leaves in both the CRC of the payload it has loaded; and by reset. -/
def Obligations.RunningCrcMovesByLoadOnly : Prop :=
  ∀ s t : State, (∀ i ∈ s.inputs, i.external = true) → step s = .next t →
    (t.crcR = s.crcR ∧ t.blockCrc = s.blockCrc) ∨
    ((s.state = .awaitingStart ∧ s.inputs = peerSends 0x43 :: t.inputs ∨
        s.state = .sendingBlock ∧ s.inputs = peerSends 0x06 :: t.inputs) ∧
      t.srcPos.toNat < s.fileSize.toNat ∧
      ∃ bytes, bytes = blockPayload s.source s.fileSize.toNat t.srcPos.toNat ∧ payload t = some bytes ∧
        t.crcR = computeCRC16 bytes ∧ t.blockCrc = computeCRC16 bytes) ∨
    ((takeInput s.accepts s.inputs = some (.reset, t.inputs) ∨ ∃ k, AnswerUsed (.cutByReset k) s t) ∧
      t.crcR = 0x0000 ∧ t.state = .idle)

/-- R25: byte 2 of every frame a step transmits is the complement of its byte 1. That is `blockNumber`, which the step
leaves as it was sent unless reset cuts a write and clears it. -/
def Obligations.FramesCarryComplement : Prop :=
  ∀ s t : State, Inv s → step s = .next t →
    ∀ f, Output.wire f ∈ t.outputs.drop s.outputs.length → f.length = 133 →
      ∃ number : Byte, f[1]? = some number ∧ f[2]? = some (255 - number) ∧ 255 - number = number ^^^ 0xFF ∧
        (NoCut s → number = t.blockNumber)

/-- R49, R50: from an idle-like state, no run depends on the registers that hold no value there, so nothing of an
earlier session, and none of the values the model chose at reset (log entry 1), reaches a later one. -/
def Obligations.EarlierRegistersReachNothing : Prop :=
  ∀ (n : Nat) (s t : State), s.state.idleLike = true → s.blockedWrite = none → SameOutside s t →
    (∀ i ∈ s.inputs, i.external = true) →
    SameRun (Host.Core.run Sys2Proof.core n s) (Host.Core.run Sys2Proof.core n t)

/-! ## Sessions -/

/-- R172: the payloads of the blocks of a file, in order and cut to the file's length, are the file. -/
def Obligations.PayloadsCarryFile : Prop :=
  ∀ (source : Memory) (fileSize : Nat),
    (((List.range ((fileSize + 127) / 128)).flatMap fun k => blockPayload source fileSize (128 * k)).take fileSize) =
      (List.range fileSize).map fun p => (source.read .src p).getD 0

/-- R144, R172, R178: a session whose handshake and blocks are all answered positively sends block 1 to block
`totalBlocks`, each once and in order, then EOT, and RUN where `runFlag` is set, and ends in DONE with SUCCESS. -/
def Obligations.AcknowledgedSessionSendsFile : Prop :=
  ∀ (s : State) (rest : List Input), Inv s → s.state = .awaitingStart → s.blockedWrite = none →
    (∀ a ∈ s.txAnswers, a = .ok) →
    s.inputs = peerSends 0x43 :: (List.replicate s.totalBlocks.toNat (peerSends 0x06) ++ rest) →
    ∃ t, Host.Core.run Sys2Proof.core (s.totalBlocks.toNat + 1) s = .next t ∧
      t.state = .done ∧ t.result = .success ∧ t.inputs = rest ∧
      t.outputs = s.outputs ++
        ((List.range s.totalBlocks.toNat).flatMap (blockOutputs s.source s.fileSize.toNat s.totalBlocks) ++
          (if s.runFlag then [.wire [0x04], .wire [s.runByte]] else [.wire [0x04]]))

/-- R139: a block answered by NAK only is retransmitted unchanged until the budget is spent; the next NAK ends the
session with RETRY_LIMIT_EXCEEDED and transmits nothing. -/
def Obligations.RetryBudgetSpent : Prop :=
  ∀ (s : State) (bytes : List Byte) (rest : List Input), s.state = .sendingBlock → s.blockedWrite = none →
    payload s = some bytes → (∀ a ∈ s.txAnswers, a = .ok) → s.currentTry.toNat ≤ s.maxRetryL.toNat →
    s.inputs = List.replicate (s.maxRetryL.toNat - s.currentTry.toNat + 1) (peerSends 0x15) ++ rest →
    Host.Core.run Sys2Proof.core (s.maxRetryL.toNat - s.currentTry.toNat + 1) s = .next { s with
      state := .failed
      result := .retryLimitExceeded
      currentTry := s.maxRetryL
      inputs := rest
      txAnswers := s.txAnswers.drop (s.maxRetryL.toNat - s.currentTry.toNat)
      outputs := s.outputs ++ (List.replicate (s.maxRetryL.toNat - s.currentTry.toNat)
        [.progress s.blockIndex s.totalBlocks, .wire (frameBytes s.blockNumber bytes s.blockCrc)]).flatten }

/-- R144, completion: a session in SENDING_BLOCK ends in a terminal state within a known number of steps, provided
every byte the peer sends is ACK, NAK or CAN and the transport always answers. -/
def Obligations.AnsweredSessionEnds : Prop :=
  ∀ (s : State) (bs : List Byte) (rest : List Input), Inv s → s.state = .sendingBlock → s.blockedWrite = none →
    (∀ a ∈ s.txAnswers, a.isAnswer = true) → (∀ b ∈ bs, b = 0x06 ∨ b = 0x15 ∨ b = 0x18) →
    bs.length = (s.totalBlocks.toNat - s.blockIndex.toNat + 1) * (s.maxRetryL.toNat + 1) - s.currentTry.toNat →
    s.inputs = bs.map peerSends ++ rest →
    ∃ k t, k ≤ bs.length ∧ Host.Core.run Sys2Proof.core k s = .next t ∧ t.state.terminal = true

end
end

