-- ==== Sys2Proof/Laws/Memory.lean ====
section
/-! SUPPORT. The laws of the byte spaces: a read after a write, the canonical form kept, and equal memories from equal
reads. -/

namespace Sys2Proof.Machine.Memory

variable {sp : Space}

@[simp] theorem listed_nil (a : Nat) : listed [] a = none := rfl

theorem listed_cons (b : Nat) (v : Byte) (m : Memory) (a : Nat) :
    listed ((b, v) :: m) a = if b = a then some v else listed m a := rfl

theorem entry_listed (a : Nat) (v : Byte) (h : sp.unlisted ≠ some v) : entry sp a v = [(a, v)] := by
  simp [entry, h]

theorem entry_unlisted (a : Nat) (v : Byte) (h : sp.unlisted = some v) : entry sp a v = [] := by
  simp [entry, h]

/-- The listed byte at another address is not changed by a write. -/
theorem listed_write_other (m : Memory) {a b : Nat} (v : Byte) (h : b ≠ a) :
    (write sp m a v).listed b = m.listed b := by
  have he : ∀ m' : Memory, (entry sp a v ++ m').listed b = m'.listed b := by
    intro m'
    by_cases hu : sp.unlisted = some v
    · simp [entry_unlisted a v hu]
    · simp [entry_listed a v hu, listed_cons, Ne.symm h]
  induction m with
  | nil => simpa [write] using he []
  | cons c m ih =>
    obtain ⟨c, w⟩ := c
    unfold write
    split
    · exact he _
    · split
      · subst_vars; rw [he, listed_cons, if_neg (Ne.symm h)]
      · simp only [listed_cons, ih]

/-- A byte that differs from what an unlisted address reads as is listed after it is written. -/
theorem listed_write_same (m : Memory) (a : Nat) (v : Byte) (h : sp.unlisted ≠ some v) :
    (write sp m a v).listed a = some v := by
  induction m with
  | nil => simp [write, entry_listed a v h, listed_cons]
  | cons c m ih =>
    obtain ⟨c, w⟩ := c
    unfold write
    split
    · simp [entry_listed a v h, listed_cons]
    · split
      · simp [entry_listed a v h, listed_cons]
      · rw [listed_cons, if_neg (by omega), ih]

theorem risingFrom_mono {m : Memory} {lo hi : Nat} (h : hi ≤ lo) (hm : risingFrom lo m = true) :
    risingFrom hi m = true := by
  cases m with
  | nil => rfl
  | cons c m =>
    simp only [risingFrom, Bool.and_eq_true, decide_eq_true_eq] at hm ⊢
    exact ⟨by omega, hm.2⟩

/-- Nothing is listed below the first address of a rising list. -/
theorem listed_below {m : Memory} {lo a : Nat} (h : a < lo) (hm : risingFrom lo m = true) :
    m.listed a = none := by
  induction m generalizing lo with
  | nil => rfl
  | cons c m ih =>
    simp only [risingFrom, Bool.and_eq_true, decide_eq_true_eq] at hm
    rw [listed_cons, if_neg (by omega)]
    exact ih (by omega) hm.2

theorem listed_write_same_unlisted (m : Memory) (lo a : Nat) (v : Byte) (h : sp.unlisted = some v)
    (hm : risingFrom lo m = true) : (write sp m a v).listed a = none := by
  induction m generalizing lo with
  | nil => simp [write, entry_unlisted a v h]
  | cons c m ih =>
    obtain ⟨c, w⟩ := c
    simp only [risingFrom, Bool.and_eq_true, decide_eq_true_eq] at hm
    unfold write
    split
    · rw [entry_unlisted a v h, List.nil_append, listed_cons, if_neg (by omega)]
      exact listed_below (by omega) hm.2
    · split
      · rw [entry_unlisted a v h, List.nil_append]
        exact listed_below (by omega) hm.2
      · rw [listed_cons, if_neg (by omega)]
        exact ih _ hm.2

/-- Reading the byte just written. PBUF needs no canonical form for this. -/
@[simp] theorem read_write_same_pbuf (m : Memory) (a : Nat) (v : Byte) :
    (write .pbuf m a v).read .pbuf a = some v := by
  simp [read, listed_write_same (sp := .pbuf) m a v (by simp [Space.unlisted])]

/-- Reading the byte just written. -/
theorem read_write_same (m : Memory) (a : Nat) (v : Byte) (hm : wf sp m = true) :
    (write sp m a v).read sp a = some v := by
  simp only [wf, Bool.and_eq_true] at hm
  by_cases h : sp.unlisted = some v
  · simp [read, listed_write_same_unlisted m 0 a v h hm.1, h]
  · simp [read, listed_write_same m a v h]

/-- Reading any other byte after a write. -/
theorem read_write_other (m : Memory) {a b : Nat} (v : Byte) (h : b ≠ a) :
    (write sp m a v).read sp b = m.read sp b := by
  simp [read, listed_write_other m v h]

theorem risingFrom_entry_append (lo a : Nat) (v : Byte) (m : Memory) (hlo : lo ≤ a)
    (hm : risingFrom (a + 1) m = true) : risingFrom lo (entry sp a v ++ m) = true := by
  by_cases h : sp.unlisted = some v
  · rw [entry_unlisted a v h]; exact risingFrom_mono (by omega) hm
  · simpa [entry_listed a v h, risingFrom, hlo] using hm

theorem risingFrom_write (m : Memory) (lo a : Nat) (v : Byte) (hlo : lo ≤ a) (hm : risingFrom lo m = true) :
    risingFrom lo (write sp m a v) = true := by
  induction m generalizing lo with
  | nil => simpa [write] using risingFrom_entry_append (sp := sp) lo a v [] hlo rfl
  | cons c m ih =>
    obtain ⟨c, w⟩ := c
    simp only [risingFrom, Bool.and_eq_true, decide_eq_true_eq] at hm
    unfold write
    split
    · apply risingFrom_entry_append _ _ _ _ hlo
      simp only [risingFrom, Bool.and_eq_true, decide_eq_true_eq]
      exact ⟨by omega, hm.2⟩
    · split
      · subst_vars; exact risingFrom_entry_append _ _ _ _ hlo hm.2
      · simp only [risingFrom, Bool.and_eq_true, decide_eq_true_eq]
        exact ⟨hm.1, ih _ (by omega) hm.2⟩

theorem all_write (p : Host.Cell → Bool) (m : Memory) (a : Nat) (v : Byte) (hm : m.all p = true)
    (ha : (entry sp a v).all p = true) : (write sp m a v).all p = true := by
  induction m with
  | nil => simpa [write] using ha
  | cons c m ih =>
    obtain ⟨c, w⟩ := c
    simp only [List.all_cons, Bool.and_eq_true] at hm
    unfold write
    split
    · simp only [List.all_append, List.all_cons, Bool.and_eq_true]; exact ⟨ha, hm⟩
    · split
      · simp only [List.all_append, Bool.and_eq_true]; exact ⟨ha, hm.2⟩
      · simp only [List.all_cons, Bool.and_eq_true]; exact ⟨hm.1, ih hm.2⟩

/-- A write inside the space keeps the canonical form. -/
theorem write_wf (m : Memory) (a : Nat) (v : Byte) (ha : a < sp.size) (hm : wf sp m = true) :
    wf sp (write sp m a v) = true := by
  simp only [wf, Bool.and_eq_true] at hm ⊢
  refine ⟨risingFrom_write m 0 a v (Nat.zero_le a) hm.1, all_write _ m a v hm.2 ?_⟩
  by_cases h : sp.unlisted = some v
  · simp [entry_unlisted a v h]
  · simp [entry_listed a v h, ha, h]

@[simp] theorem wf_nil : wf sp [] = true := rfl

/-- Equal listings of rising lists are equal lists. -/
theorem eq_of_listed {m m' : Memory} (lo : Nat) (hm : risingFrom lo m = true) (hm' : risingFrom lo m' = true)
    (h : ∀ a, m.listed a = m'.listed a) : m = m' := by
  induction m generalizing m' lo with
  | nil =>
    cases m' with
    | nil => rfl
    | cons c m' => obtain ⟨b, w⟩ := c; have := h b; simp [listed_cons] at this
  | cons c m ih =>
    cases m' with
    | nil => obtain ⟨b, w⟩ := c; have := h b; simp [listed_cons] at this
    | cons c' m' =>
      simp only [risingFrom, Bool.and_eq_true, decide_eq_true_eq] at hm hm'
      have hk : c.1 = c'.1 := by
        rcases Nat.lt_trichotomy c.1 c'.1 with hlt | heq | hgt
        · have := h c.1
          rw [listed_cons, if_pos rfl, listed_cons, if_neg (by omega),
            listed_below (by omega) hm'.2] at this
          cases this
        · exact heq
        · have := h c'.1
          rw [listed_cons, if_neg (by omega), listed_below (by omega) hm.2, listed_cons, if_pos rfl] at this
          cases this
      have hv : c.2 = c'.2 := by
        have := h c.1
        rw [listed_cons, if_pos rfl, listed_cons, if_pos hk.symm] at this
        exact Option.some.inj this
      have ht : m = m' := by
        refine ih (c.1 + 1) hm.2 (hk ▸ hm'.2) fun a => ?_
        by_cases ha : a ≤ c.1
        · rw [listed_below (by omega) hm.2, listed_below (lo := c.1 + 1) (by omega) (hk ▸ hm'.2)]
        · have := h a
          rw [listed_cons, if_neg (by omega), listed_cons, if_neg (by omega)] at this
          exact this
      rw [ht, Prod.ext hk hv]

theorem listed_mem {m : Memory} {a : Nat} {v : Byte} (h : m.listed a = some v) : (a, v) ∈ m := by
  induction m with
  | nil => cases h
  | cons c m ih =>
    rw [listed_cons] at h
    split at h
    · rename_i hc; cases h; subst hc; exact List.mem_cons_self
    · exact List.mem_cons_of_mem _ (ih h)

/-- A canonical memory lists no byte that an unlisted address reads as. -/
theorem listed_ne_unlisted {m : Memory} {a : Nat} {v : Byte} (hm : wf sp m = true) (h : m.listed a = some v) :
    sp.unlisted ≠ some v := by
  simp only [wf, Bool.and_eq_true, List.all_eq_true, decide_eq_true_eq] at hm
  exact (hm.2 _ (listed_mem h)).2

/-- Two canonical memories that read the same at every address are the same data. -/
theorem eq_of_read {m m' : Memory} (hm : wf sp m = true) (hm' : wf sp m' = true)
    (h : ∀ a, m.read sp a = m'.read sp a) : m = m' := by
  have hr := hm; have hr' := hm'
  simp only [wf, Bool.and_eq_true] at hr hr'
  refine eq_of_listed 0 hr.1 hr'.1 fun a => ?_
  have ha := h a
  simp only [read] at ha
  cases h1 : m.listed a with
  | none =>
    cases h2 : m'.listed a with
    | none => rfl
    | some w => rw [h1, h2] at ha; exact absurd ha (listed_ne_unlisted hm' h2)
  | some v =>
    cases h2 : m'.listed a with
    | none => rw [h1, h2] at ha; exact absurd ha.symm (listed_ne_unlisted hm h1)
    | some w => rw [h1, h2] at ha; exact ha

/-- Reading past the end of a canonical space gives what an unlisted address reads as. -/
theorem read_outside {m : Memory} {a : Nat} (hm : wf sp m = true) (ha : sp.size ≤ a) :
    m.read sp a = sp.unlisted := by
  simp only [wf, Bool.and_eq_true, List.all_eq_true, decide_eq_true_eq] at hm
  unfold read
  cases h : m.listed a with
  | none => rfl
  | some v => have := (hm.2 _ (listed_mem h)).1; omega

end Sys2Proof.Machine.Memory
end

