-- ==== Sys2Proof/Laws/State.lean ====
section
/-! SUPPORT. What each named update of the state does to each field, true by definition, so that no later proof unfolds
an update. -/

namespace Sys2Proof.Machine

/-! ### State.enterFailed -/

section
variable (s : State) (k : SessionResult)

@[simp] theorem State.enterFailed_state : (s.enterFailed k).state = .failed := rfl
@[simp] theorem State.enterFailed_result : (s.enterFailed k).result = k := rfl
@[simp] theorem State.enterFailed_blockNumber : (s.enterFailed k).blockNumber = s.blockNumber := rfl
@[simp] theorem State.enterFailed_currentTry : (s.enterFailed k).currentTry = s.currentTry := rfl
@[simp] theorem State.enterFailed_maxRetryL : (s.enterFailed k).maxRetryL = s.maxRetryL := rfl
@[simp] theorem State.enterFailed_fileSize : (s.enterFailed k).fileSize = s.fileSize := rfl
@[simp] theorem State.enterFailed_totalBlocks : (s.enterFailed k).totalBlocks = s.totalBlocks := rfl
@[simp] theorem State.enterFailed_srcPos : (s.enterFailed k).srcPos = s.srcPos := rfl
@[simp] theorem State.enterFailed_chunkLen : (s.enterFailed k).chunkLen = s.chunkLen := rfl
@[simp] theorem State.enterFailed_blockIndex : (s.enterFailed k).blockIndex = s.blockIndex := rfl
@[simp] theorem State.enterFailed_eofReached : (s.enterFailed k).eofReached = s.eofReached := rfl
@[simp] theorem State.enterFailed_runFlag : (s.enterFailed k).runFlag = s.runFlag := rfl
@[simp] theorem State.enterFailed_pbuf : (s.enterFailed k).pbuf = s.pbuf := rfl
@[simp] theorem State.enterFailed_blockCrc : (s.enterFailed k).blockCrc = s.blockCrc := rfl
@[simp] theorem State.enterFailed_crcR : (s.enterFailed k).crcR = s.crcR := rfl
@[simp] theorem State.enterFailed_runByte : (s.enterFailed k).runByte = s.runByte := rfl
@[simp] theorem State.enterFailed_source : (s.enterFailed k).source = s.source := rfl
@[simp] theorem State.enterFailed_inputs : (s.enterFailed k).inputs = s.inputs := rfl
@[simp] theorem State.enterFailed_txAnswers : (s.enterFailed k).txAnswers = s.txAnswers := rfl
@[simp] theorem State.enterFailed_outputs : (s.enterFailed k).outputs = s.outputs := rfl
@[simp] theorem State.enterFailed_blockedWrite : (s.enterFailed k).blockedWrite = s.blockedWrite := rfl

end

/-! ### State.enterCancelled -/

section
variable (s : State)

@[simp] theorem State.enterCancelled_state : (s.enterCancelled).state = .cancelled := rfl
@[simp] theorem State.enterCancelled_result : (s.enterCancelled).result = .cancelledByPeer := rfl
@[simp] theorem State.enterCancelled_blockNumber : (s.enterCancelled).blockNumber = s.blockNumber := rfl
@[simp] theorem State.enterCancelled_currentTry : (s.enterCancelled).currentTry = s.currentTry := rfl
@[simp] theorem State.enterCancelled_maxRetryL : (s.enterCancelled).maxRetryL = s.maxRetryL := rfl
@[simp] theorem State.enterCancelled_fileSize : (s.enterCancelled).fileSize = s.fileSize := rfl
@[simp] theorem State.enterCancelled_totalBlocks : (s.enterCancelled).totalBlocks = s.totalBlocks := rfl
@[simp] theorem State.enterCancelled_srcPos : (s.enterCancelled).srcPos = s.srcPos := rfl
@[simp] theorem State.enterCancelled_chunkLen : (s.enterCancelled).chunkLen = s.chunkLen := rfl
@[simp] theorem State.enterCancelled_blockIndex : (s.enterCancelled).blockIndex = s.blockIndex := rfl
@[simp] theorem State.enterCancelled_eofReached : (s.enterCancelled).eofReached = s.eofReached := rfl
@[simp] theorem State.enterCancelled_runFlag : (s.enterCancelled).runFlag = s.runFlag := rfl
@[simp] theorem State.enterCancelled_pbuf : (s.enterCancelled).pbuf = s.pbuf := rfl
@[simp] theorem State.enterCancelled_blockCrc : (s.enterCancelled).blockCrc = s.blockCrc := rfl
@[simp] theorem State.enterCancelled_crcR : (s.enterCancelled).crcR = s.crcR := rfl
@[simp] theorem State.enterCancelled_runByte : (s.enterCancelled).runByte = s.runByte := rfl
@[simp] theorem State.enterCancelled_source : (s.enterCancelled).source = s.source := rfl
@[simp] theorem State.enterCancelled_inputs : (s.enterCancelled).inputs = s.inputs := rfl
@[simp] theorem State.enterCancelled_txAnswers : (s.enterCancelled).txAnswers = s.txAnswers := rfl
@[simp] theorem State.enterCancelled_outputs : (s.enterCancelled).outputs = s.outputs := rfl
@[simp] theorem State.enterCancelled_blockedWrite : (s.enterCancelled).blockedWrite = s.blockedWrite := rfl

end

/-! ### State.enterTerminationAck -/

section
variable (s : State)

@[simp] theorem State.enterTerminationAck_state : (s.enterTerminationAck).state = .awaitingTerminationAck := rfl
@[simp] theorem State.enterTerminationAck_result : (s.enterTerminationAck).result = s.result := rfl
@[simp] theorem State.enterTerminationAck_blockNumber : (s.enterTerminationAck).blockNumber = s.blockNumber := rfl
@[simp] theorem State.enterTerminationAck_currentTry : (s.enterTerminationAck).currentTry = s.currentTry := rfl
@[simp] theorem State.enterTerminationAck_maxRetryL : (s.enterTerminationAck).maxRetryL = s.maxRetryL := rfl
@[simp] theorem State.enterTerminationAck_fileSize : (s.enterTerminationAck).fileSize = s.fileSize := rfl
@[simp] theorem State.enterTerminationAck_totalBlocks : (s.enterTerminationAck).totalBlocks = s.totalBlocks := rfl
@[simp] theorem State.enterTerminationAck_srcPos : (s.enterTerminationAck).srcPos = s.srcPos := rfl
@[simp] theorem State.enterTerminationAck_chunkLen : (s.enterTerminationAck).chunkLen = s.chunkLen := rfl
@[simp] theorem State.enterTerminationAck_blockIndex : (s.enterTerminationAck).blockIndex = s.blockIndex := rfl
@[simp] theorem State.enterTerminationAck_eofReached : (s.enterTerminationAck).eofReached = s.eofReached := rfl
@[simp] theorem State.enterTerminationAck_runFlag : (s.enterTerminationAck).runFlag = s.runFlag := rfl
@[simp] theorem State.enterTerminationAck_pbuf : (s.enterTerminationAck).pbuf = s.pbuf := rfl
@[simp] theorem State.enterTerminationAck_blockCrc : (s.enterTerminationAck).blockCrc = s.blockCrc := rfl
@[simp] theorem State.enterTerminationAck_crcR : (s.enterTerminationAck).crcR = s.crcR := rfl
@[simp] theorem State.enterTerminationAck_runByte : (s.enterTerminationAck).runByte = s.runByte := rfl
@[simp] theorem State.enterTerminationAck_source : (s.enterTerminationAck).source = s.source := rfl
@[simp] theorem State.enterTerminationAck_inputs : (s.enterTerminationAck).inputs = s.inputs := rfl
@[simp] theorem State.enterTerminationAck_txAnswers : (s.enterTerminationAck).txAnswers = s.txAnswers := rfl
@[simp] theorem State.enterTerminationAck_outputs : (s.enterTerminationAck).outputs = s.outputs := rfl
@[simp] theorem State.enterTerminationAck_blockedWrite : (s.enterTerminationAck).blockedWrite = s.blockedWrite := rfl

end

/-! ### State.enterDone -/

section
variable (s : State)

@[simp] theorem State.enterDone_state : (s.enterDone).state = .done := rfl
@[simp] theorem State.enterDone_result : (s.enterDone).result = .success := rfl
@[simp] theorem State.enterDone_blockNumber : (s.enterDone).blockNumber = s.blockNumber := rfl
@[simp] theorem State.enterDone_currentTry : (s.enterDone).currentTry = s.currentTry := rfl
@[simp] theorem State.enterDone_maxRetryL : (s.enterDone).maxRetryL = s.maxRetryL := rfl
@[simp] theorem State.enterDone_fileSize : (s.enterDone).fileSize = s.fileSize := rfl
@[simp] theorem State.enterDone_totalBlocks : (s.enterDone).totalBlocks = s.totalBlocks := rfl
@[simp] theorem State.enterDone_srcPos : (s.enterDone).srcPos = s.srcPos := rfl
@[simp] theorem State.enterDone_chunkLen : (s.enterDone).chunkLen = s.chunkLen := rfl
@[simp] theorem State.enterDone_blockIndex : (s.enterDone).blockIndex = s.blockIndex := rfl
@[simp] theorem State.enterDone_eofReached : (s.enterDone).eofReached = s.eofReached := rfl
@[simp] theorem State.enterDone_runFlag : (s.enterDone).runFlag = s.runFlag := rfl
@[simp] theorem State.enterDone_pbuf : (s.enterDone).pbuf = s.pbuf := rfl
@[simp] theorem State.enterDone_blockCrc : (s.enterDone).blockCrc = s.blockCrc := rfl
@[simp] theorem State.enterDone_crcR : (s.enterDone).crcR = s.crcR := rfl
@[simp] theorem State.enterDone_runByte : (s.enterDone).runByte = s.runByte := rfl
@[simp] theorem State.enterDone_source : (s.enterDone).source = s.source := rfl
@[simp] theorem State.enterDone_inputs : (s.enterDone).inputs = s.inputs := rfl
@[simp] theorem State.enterDone_txAnswers : (s.enterDone).txAnswers = s.txAnswers := rfl
@[simp] theorem State.enterDone_outputs : (s.enterDone).outputs = s.outputs := rfl
@[simp] theorem State.enterDone_blockedWrite : (s.enterDone).blockedWrite = s.blockedWrite := rfl

end

/-! ### State.emit -/

section
variable (s : State) (o : Output)

@[simp] theorem State.emit_state : (s.emit o).state = s.state := rfl
@[simp] theorem State.emit_result : (s.emit o).result = s.result := rfl
@[simp] theorem State.emit_blockNumber : (s.emit o).blockNumber = s.blockNumber := rfl
@[simp] theorem State.emit_currentTry : (s.emit o).currentTry = s.currentTry := rfl
@[simp] theorem State.emit_maxRetryL : (s.emit o).maxRetryL = s.maxRetryL := rfl
@[simp] theorem State.emit_fileSize : (s.emit o).fileSize = s.fileSize := rfl
@[simp] theorem State.emit_totalBlocks : (s.emit o).totalBlocks = s.totalBlocks := rfl
@[simp] theorem State.emit_srcPos : (s.emit o).srcPos = s.srcPos := rfl
@[simp] theorem State.emit_chunkLen : (s.emit o).chunkLen = s.chunkLen := rfl
@[simp] theorem State.emit_blockIndex : (s.emit o).blockIndex = s.blockIndex := rfl
@[simp] theorem State.emit_eofReached : (s.emit o).eofReached = s.eofReached := rfl
@[simp] theorem State.emit_runFlag : (s.emit o).runFlag = s.runFlag := rfl
@[simp] theorem State.emit_pbuf : (s.emit o).pbuf = s.pbuf := rfl
@[simp] theorem State.emit_blockCrc : (s.emit o).blockCrc = s.blockCrc := rfl
@[simp] theorem State.emit_crcR : (s.emit o).crcR = s.crcR := rfl
@[simp] theorem State.emit_runByte : (s.emit o).runByte = s.runByte := rfl
@[simp] theorem State.emit_source : (s.emit o).source = s.source := rfl
@[simp] theorem State.emit_inputs : (s.emit o).inputs = s.inputs := rfl
@[simp] theorem State.emit_txAnswers : (s.emit o).txAnswers = s.txAnswers := rfl
@[simp] theorem State.emit_outputs : (s.emit o).outputs = s.outputs ++ [o] := rfl
@[simp] theorem State.emit_blockedWrite : (s.emit o).blockedWrite = s.blockedWrite := rfl

end

/-! ### State.reportProgress -/

section
variable (s : State)

@[simp] theorem State.reportProgress_state : (s.reportProgress).state = s.state := rfl
@[simp] theorem State.reportProgress_result : (s.reportProgress).result = s.result := rfl
@[simp] theorem State.reportProgress_blockNumber : (s.reportProgress).blockNumber = s.blockNumber := rfl
@[simp] theorem State.reportProgress_currentTry : (s.reportProgress).currentTry = s.currentTry := rfl
@[simp] theorem State.reportProgress_maxRetryL : (s.reportProgress).maxRetryL = s.maxRetryL := rfl
@[simp] theorem State.reportProgress_fileSize : (s.reportProgress).fileSize = s.fileSize := rfl
@[simp] theorem State.reportProgress_totalBlocks : (s.reportProgress).totalBlocks = s.totalBlocks := rfl
@[simp] theorem State.reportProgress_srcPos : (s.reportProgress).srcPos = s.srcPos := rfl
@[simp] theorem State.reportProgress_chunkLen : (s.reportProgress).chunkLen = s.chunkLen := rfl
@[simp] theorem State.reportProgress_blockIndex : (s.reportProgress).blockIndex = s.blockIndex := rfl
@[simp] theorem State.reportProgress_eofReached : (s.reportProgress).eofReached = s.eofReached := rfl
@[simp] theorem State.reportProgress_runFlag : (s.reportProgress).runFlag = s.runFlag := rfl
@[simp] theorem State.reportProgress_pbuf : (s.reportProgress).pbuf = s.pbuf := rfl
@[simp] theorem State.reportProgress_blockCrc : (s.reportProgress).blockCrc = s.blockCrc := rfl
@[simp] theorem State.reportProgress_crcR : (s.reportProgress).crcR = s.crcR := rfl
@[simp] theorem State.reportProgress_runByte : (s.reportProgress).runByte = s.runByte := rfl
@[simp] theorem State.reportProgress_source : (s.reportProgress).source = s.source := rfl
@[simp] theorem State.reportProgress_inputs : (s.reportProgress).inputs = s.inputs := rfl
@[simp] theorem State.reportProgress_txAnswers : (s.reportProgress).txAnswers = s.txAnswers := rfl
@[simp] theorem State.reportProgress_outputs : (s.reportProgress).outputs = s.outputs ++ [.progress s.blockIndex s.totalBlocks] := rfl
@[simp] theorem State.reportProgress_blockedWrite : (s.reportProgress).blockedWrite = s.blockedWrite := rfl

end

/-! ### State.popAnswer -/

section
variable (s : State)

@[simp] theorem State.popAnswer_state : (s.popAnswer).state = s.state := rfl
@[simp] theorem State.popAnswer_result : (s.popAnswer).result = s.result := rfl
@[simp] theorem State.popAnswer_blockNumber : (s.popAnswer).blockNumber = s.blockNumber := rfl
@[simp] theorem State.popAnswer_currentTry : (s.popAnswer).currentTry = s.currentTry := rfl
@[simp] theorem State.popAnswer_maxRetryL : (s.popAnswer).maxRetryL = s.maxRetryL := rfl
@[simp] theorem State.popAnswer_fileSize : (s.popAnswer).fileSize = s.fileSize := rfl
@[simp] theorem State.popAnswer_totalBlocks : (s.popAnswer).totalBlocks = s.totalBlocks := rfl
@[simp] theorem State.popAnswer_srcPos : (s.popAnswer).srcPos = s.srcPos := rfl
@[simp] theorem State.popAnswer_chunkLen : (s.popAnswer).chunkLen = s.chunkLen := rfl
@[simp] theorem State.popAnswer_blockIndex : (s.popAnswer).blockIndex = s.blockIndex := rfl
@[simp] theorem State.popAnswer_eofReached : (s.popAnswer).eofReached = s.eofReached := rfl
@[simp] theorem State.popAnswer_runFlag : (s.popAnswer).runFlag = s.runFlag := rfl
@[simp] theorem State.popAnswer_pbuf : (s.popAnswer).pbuf = s.pbuf := rfl
@[simp] theorem State.popAnswer_blockCrc : (s.popAnswer).blockCrc = s.blockCrc := rfl
@[simp] theorem State.popAnswer_crcR : (s.popAnswer).crcR = s.crcR := rfl
@[simp] theorem State.popAnswer_runByte : (s.popAnswer).runByte = s.runByte := rfl
@[simp] theorem State.popAnswer_source : (s.popAnswer).source = s.source := rfl
@[simp] theorem State.popAnswer_inputs : (s.popAnswer).inputs = s.inputs := rfl
@[simp] theorem State.popAnswer_txAnswers : (s.popAnswer).txAnswers = s.txAnswers.tail := rfl
@[simp] theorem State.popAnswer_outputs : (s.popAnswer).outputs = s.outputs := rfl
@[simp] theorem State.popAnswer_blockedWrite : (s.popAnswer).blockedWrite = s.blockedWrite := rfl

end

/-! ### State.crcClear -/

section
variable (s : State)

@[simp] theorem State.crcClear_state : (s.crcClear).state = s.state := rfl
@[simp] theorem State.crcClear_result : (s.crcClear).result = s.result := rfl
@[simp] theorem State.crcClear_blockNumber : (s.crcClear).blockNumber = s.blockNumber := rfl
@[simp] theorem State.crcClear_currentTry : (s.crcClear).currentTry = s.currentTry := rfl
@[simp] theorem State.crcClear_maxRetryL : (s.crcClear).maxRetryL = s.maxRetryL := rfl
@[simp] theorem State.crcClear_fileSize : (s.crcClear).fileSize = s.fileSize := rfl
@[simp] theorem State.crcClear_totalBlocks : (s.crcClear).totalBlocks = s.totalBlocks := rfl
@[simp] theorem State.crcClear_srcPos : (s.crcClear).srcPos = s.srcPos := rfl
@[simp] theorem State.crcClear_chunkLen : (s.crcClear).chunkLen = s.chunkLen := rfl
@[simp] theorem State.crcClear_blockIndex : (s.crcClear).blockIndex = s.blockIndex := rfl
@[simp] theorem State.crcClear_eofReached : (s.crcClear).eofReached = s.eofReached := rfl
@[simp] theorem State.crcClear_runFlag : (s.crcClear).runFlag = s.runFlag := rfl
@[simp] theorem State.crcClear_pbuf : (s.crcClear).pbuf = s.pbuf := rfl
@[simp] theorem State.crcClear_blockCrc : (s.crcClear).blockCrc = s.blockCrc := rfl
@[simp] theorem State.crcClear_crcR : (s.crcClear).crcR = Config.crcInitial := rfl
@[simp] theorem State.crcClear_runByte : (s.crcClear).runByte = s.runByte := rfl
@[simp] theorem State.crcClear_source : (s.crcClear).source = s.source := rfl
@[simp] theorem State.crcClear_inputs : (s.crcClear).inputs = s.inputs := rfl
@[simp] theorem State.crcClear_txAnswers : (s.crcClear).txAnswers = s.txAnswers := rfl
@[simp] theorem State.crcClear_outputs : (s.crcClear).outputs = s.outputs := rfl
@[simp] theorem State.crcClear_blockedWrite : (s.crcClear).blockedWrite = s.blockedWrite := rfl

end

/-! ### State.crcUpdate -/

section
variable (s : State) (d : Byte)

@[simp] theorem State.crcUpdate_state : (s.crcUpdate d).state = s.state := rfl
@[simp] theorem State.crcUpdate_result : (s.crcUpdate d).result = s.result := rfl
@[simp] theorem State.crcUpdate_blockNumber : (s.crcUpdate d).blockNumber = s.blockNumber := rfl
@[simp] theorem State.crcUpdate_currentTry : (s.crcUpdate d).currentTry = s.currentTry := rfl
@[simp] theorem State.crcUpdate_maxRetryL : (s.crcUpdate d).maxRetryL = s.maxRetryL := rfl
@[simp] theorem State.crcUpdate_fileSize : (s.crcUpdate d).fileSize = s.fileSize := rfl
@[simp] theorem State.crcUpdate_totalBlocks : (s.crcUpdate d).totalBlocks = s.totalBlocks := rfl
@[simp] theorem State.crcUpdate_srcPos : (s.crcUpdate d).srcPos = s.srcPos := rfl
@[simp] theorem State.crcUpdate_chunkLen : (s.crcUpdate d).chunkLen = s.chunkLen := rfl
@[simp] theorem State.crcUpdate_blockIndex : (s.crcUpdate d).blockIndex = s.blockIndex := rfl
@[simp] theorem State.crcUpdate_eofReached : (s.crcUpdate d).eofReached = s.eofReached := rfl
@[simp] theorem State.crcUpdate_runFlag : (s.crcUpdate d).runFlag = s.runFlag := rfl
@[simp] theorem State.crcUpdate_pbuf : (s.crcUpdate d).pbuf = s.pbuf := rfl
@[simp] theorem State.crcUpdate_blockCrc : (s.crcUpdate d).blockCrc = s.blockCrc := rfl
@[simp] theorem State.crcUpdate_crcR : (s.crcUpdate d).crcR = crcStep s.crcR d := rfl
@[simp] theorem State.crcUpdate_runByte : (s.crcUpdate d).runByte = s.runByte := rfl
@[simp] theorem State.crcUpdate_source : (s.crcUpdate d).source = s.source := rfl
@[simp] theorem State.crcUpdate_inputs : (s.crcUpdate d).inputs = s.inputs := rfl
@[simp] theorem State.crcUpdate_txAnswers : (s.crcUpdate d).txAnswers = s.txAnswers := rfl
@[simp] theorem State.crcUpdate_outputs : (s.crcUpdate d).outputs = s.outputs := rfl
@[simp] theorem State.crcUpdate_blockedWrite : (s.crcUpdate d).blockedWrite = s.blockedWrite := rfl

end

/-! ### State.measureChunk -/

section
variable (s : State)

@[simp] theorem State.measureChunk_state : (s.measureChunk).state = s.state := rfl
@[simp] theorem State.measureChunk_result : (s.measureChunk).result = s.result := rfl
@[simp] theorem State.measureChunk_blockNumber : (s.measureChunk).blockNumber = s.blockNumber := rfl
@[simp] theorem State.measureChunk_currentTry : (s.measureChunk).currentTry = s.currentTry := rfl
@[simp] theorem State.measureChunk_maxRetryL : (s.measureChunk).maxRetryL = s.maxRetryL := rfl
@[simp] theorem State.measureChunk_fileSize : (s.measureChunk).fileSize = s.fileSize := rfl
@[simp] theorem State.measureChunk_totalBlocks : (s.measureChunk).totalBlocks = s.totalBlocks := rfl
@[simp] theorem State.measureChunk_srcPos : (s.measureChunk).srcPos = s.srcPos := rfl
@[simp] theorem State.measureChunk_chunkLen : (s.measureChunk).chunkLen = chunkLength s.fileSize s.srcPos := rfl
@[simp] theorem State.measureChunk_blockIndex : (s.measureChunk).blockIndex = s.blockIndex := rfl
@[simp] theorem State.measureChunk_eofReached : (s.measureChunk).eofReached = s.eofReached := rfl
@[simp] theorem State.measureChunk_runFlag : (s.measureChunk).runFlag = s.runFlag := rfl
@[simp] theorem State.measureChunk_pbuf : (s.measureChunk).pbuf = s.pbuf := rfl
@[simp] theorem State.measureChunk_blockCrc : (s.measureChunk).blockCrc = s.blockCrc := rfl
@[simp] theorem State.measureChunk_crcR : (s.measureChunk).crcR = s.crcR := rfl
@[simp] theorem State.measureChunk_runByte : (s.measureChunk).runByte = s.runByte := rfl
@[simp] theorem State.measureChunk_source : (s.measureChunk).source = s.source := rfl
@[simp] theorem State.measureChunk_inputs : (s.measureChunk).inputs = s.inputs := rfl
@[simp] theorem State.measureChunk_txAnswers : (s.measureChunk).txAnswers = s.txAnswers := rfl
@[simp] theorem State.measureChunk_outputs : (s.measureChunk).outputs = s.outputs := rfl
@[simp] theorem State.measureChunk_blockedWrite : (s.measureChunk).blockedWrite = s.blockedWrite := rfl

end

/-! ### State.pbufWrite -/

section
variable (s : State) (i : Nat) (v : Byte)

@[simp] theorem State.pbufWrite_state : (s.pbufWrite i v).state = s.state := rfl
@[simp] theorem State.pbufWrite_result : (s.pbufWrite i v).result = s.result := rfl
@[simp] theorem State.pbufWrite_blockNumber : (s.pbufWrite i v).blockNumber = s.blockNumber := rfl
@[simp] theorem State.pbufWrite_currentTry : (s.pbufWrite i v).currentTry = s.currentTry := rfl
@[simp] theorem State.pbufWrite_maxRetryL : (s.pbufWrite i v).maxRetryL = s.maxRetryL := rfl
@[simp] theorem State.pbufWrite_fileSize : (s.pbufWrite i v).fileSize = s.fileSize := rfl
@[simp] theorem State.pbufWrite_totalBlocks : (s.pbufWrite i v).totalBlocks = s.totalBlocks := rfl
@[simp] theorem State.pbufWrite_srcPos : (s.pbufWrite i v).srcPos = s.srcPos := rfl
@[simp] theorem State.pbufWrite_chunkLen : (s.pbufWrite i v).chunkLen = s.chunkLen := rfl
@[simp] theorem State.pbufWrite_blockIndex : (s.pbufWrite i v).blockIndex = s.blockIndex := rfl
@[simp] theorem State.pbufWrite_eofReached : (s.pbufWrite i v).eofReached = s.eofReached := rfl
@[simp] theorem State.pbufWrite_runFlag : (s.pbufWrite i v).runFlag = s.runFlag := rfl
@[simp] theorem State.pbufWrite_pbuf : (s.pbufWrite i v).pbuf = s.pbuf.write .pbuf i v := rfl
@[simp] theorem State.pbufWrite_blockCrc : (s.pbufWrite i v).blockCrc = s.blockCrc := rfl
@[simp] theorem State.pbufWrite_crcR : (s.pbufWrite i v).crcR = s.crcR := rfl
@[simp] theorem State.pbufWrite_runByte : (s.pbufWrite i v).runByte = s.runByte := rfl
@[simp] theorem State.pbufWrite_source : (s.pbufWrite i v).source = s.source := rfl
@[simp] theorem State.pbufWrite_inputs : (s.pbufWrite i v).inputs = s.inputs := rfl
@[simp] theorem State.pbufWrite_txAnswers : (s.pbufWrite i v).txAnswers = s.txAnswers := rfl
@[simp] theorem State.pbufWrite_outputs : (s.pbufWrite i v).outputs = s.outputs := rfl
@[simp] theorem State.pbufWrite_blockedWrite : (s.pbufWrite i v).blockedWrite = s.blockedWrite := rfl

end

/-! ### State.rewind -/

section
variable (s : State)

@[simp] theorem State.rewind_state : (s.rewind).state = s.state := rfl
@[simp] theorem State.rewind_result : (s.rewind).result = s.result := rfl
@[simp] theorem State.rewind_blockNumber : (s.rewind).blockNumber = 1 := rfl
@[simp] theorem State.rewind_currentTry : (s.rewind).currentTry = 0 := rfl
@[simp] theorem State.rewind_maxRetryL : (s.rewind).maxRetryL = s.maxRetryL := rfl
@[simp] theorem State.rewind_fileSize : (s.rewind).fileSize = s.fileSize := rfl
@[simp] theorem State.rewind_totalBlocks : (s.rewind).totalBlocks = s.totalBlocks := rfl
@[simp] theorem State.rewind_srcPos : (s.rewind).srcPos = 0 := rfl
@[simp] theorem State.rewind_chunkLen : (s.rewind).chunkLen = s.chunkLen := rfl
@[simp] theorem State.rewind_blockIndex : (s.rewind).blockIndex = 1 := rfl
@[simp] theorem State.rewind_eofReached : (s.rewind).eofReached = s.eofReached := rfl
@[simp] theorem State.rewind_runFlag : (s.rewind).runFlag = s.runFlag := rfl
@[simp] theorem State.rewind_pbuf : (s.rewind).pbuf = s.pbuf := rfl
@[simp] theorem State.rewind_blockCrc : (s.rewind).blockCrc = s.blockCrc := rfl
@[simp] theorem State.rewind_crcR : (s.rewind).crcR = s.crcR := rfl
@[simp] theorem State.rewind_runByte : (s.rewind).runByte = s.runByte := rfl
@[simp] theorem State.rewind_source : (s.rewind).source = s.source := rfl
@[simp] theorem State.rewind_inputs : (s.rewind).inputs = s.inputs := rfl
@[simp] theorem State.rewind_txAnswers : (s.rewind).txAnswers = s.txAnswers := rfl
@[simp] theorem State.rewind_outputs : (s.rewind).outputs = s.outputs := rfl
@[simp] theorem State.rewind_blockedWrite : (s.rewind).blockedWrite = s.blockedWrite := rfl

end

/-! ### State.setEof -/

section
variable (s : State) (b : Bool)

@[simp] theorem State.setEof_state : (s.setEof b).state = s.state := rfl
@[simp] theorem State.setEof_result : (s.setEof b).result = s.result := rfl
@[simp] theorem State.setEof_blockNumber : (s.setEof b).blockNumber = s.blockNumber := rfl
@[simp] theorem State.setEof_currentTry : (s.setEof b).currentTry = s.currentTry := rfl
@[simp] theorem State.setEof_maxRetryL : (s.setEof b).maxRetryL = s.maxRetryL := rfl
@[simp] theorem State.setEof_fileSize : (s.setEof b).fileSize = s.fileSize := rfl
@[simp] theorem State.setEof_totalBlocks : (s.setEof b).totalBlocks = s.totalBlocks := rfl
@[simp] theorem State.setEof_srcPos : (s.setEof b).srcPos = s.srcPos := rfl
@[simp] theorem State.setEof_chunkLen : (s.setEof b).chunkLen = s.chunkLen := rfl
@[simp] theorem State.setEof_blockIndex : (s.setEof b).blockIndex = s.blockIndex := rfl
@[simp] theorem State.setEof_eofReached : (s.setEof b).eofReached = b := rfl
@[simp] theorem State.setEof_runFlag : (s.setEof b).runFlag = s.runFlag := rfl
@[simp] theorem State.setEof_pbuf : (s.setEof b).pbuf = s.pbuf := rfl
@[simp] theorem State.setEof_blockCrc : (s.setEof b).blockCrc = s.blockCrc := rfl
@[simp] theorem State.setEof_crcR : (s.setEof b).crcR = s.crcR := rfl
@[simp] theorem State.setEof_runByte : (s.setEof b).runByte = s.runByte := rfl
@[simp] theorem State.setEof_source : (s.setEof b).source = s.source := rfl
@[simp] theorem State.setEof_inputs : (s.setEof b).inputs = s.inputs := rfl
@[simp] theorem State.setEof_txAnswers : (s.setEof b).txAnswers = s.txAnswers := rfl
@[simp] theorem State.setEof_outputs : (s.setEof b).outputs = s.outputs := rfl
@[simp] theorem State.setEof_blockedWrite : (s.setEof b).blockedWrite = s.blockedWrite := rfl

end

/-! ### State.enterSending -/

section
variable (s : State)

@[simp] theorem State.enterSending_state : (s.enterSending).state = .sendingBlock := rfl
@[simp] theorem State.enterSending_result : (s.enterSending).result = s.result := rfl
@[simp] theorem State.enterSending_blockNumber : (s.enterSending).blockNumber = s.blockNumber := rfl
@[simp] theorem State.enterSending_currentTry : (s.enterSending).currentTry = s.currentTry := rfl
@[simp] theorem State.enterSending_maxRetryL : (s.enterSending).maxRetryL = s.maxRetryL := rfl
@[simp] theorem State.enterSending_fileSize : (s.enterSending).fileSize = s.fileSize := rfl
@[simp] theorem State.enterSending_totalBlocks : (s.enterSending).totalBlocks = s.totalBlocks := rfl
@[simp] theorem State.enterSending_srcPos : (s.enterSending).srcPos = s.srcPos := rfl
@[simp] theorem State.enterSending_chunkLen : (s.enterSending).chunkLen = s.chunkLen := rfl
@[simp] theorem State.enterSending_blockIndex : (s.enterSending).blockIndex = s.blockIndex := rfl
@[simp] theorem State.enterSending_eofReached : (s.enterSending).eofReached = s.eofReached := rfl
@[simp] theorem State.enterSending_runFlag : (s.enterSending).runFlag = s.runFlag := rfl
@[simp] theorem State.enterSending_pbuf : (s.enterSending).pbuf = s.pbuf := rfl
@[simp] theorem State.enterSending_blockCrc : (s.enterSending).blockCrc = s.blockCrc := rfl
@[simp] theorem State.enterSending_crcR : (s.enterSending).crcR = s.crcR := rfl
@[simp] theorem State.enterSending_runByte : (s.enterSending).runByte = s.runByte := rfl
@[simp] theorem State.enterSending_source : (s.enterSending).source = s.source := rfl
@[simp] theorem State.enterSending_inputs : (s.enterSending).inputs = s.inputs := rfl
@[simp] theorem State.enterSending_txAnswers : (s.enterSending).txAnswers = s.txAnswers := rfl
@[simp] theorem State.enterSending_outputs : (s.enterSending).outputs = s.outputs := rfl
@[simp] theorem State.enterSending_blockedWrite : (s.enterSending).blockedWrite = s.blockedWrite := rfl

end

/-! ### State.countRetry -/

section
variable (s : State)

@[simp] theorem State.countRetry_state : (s.countRetry).state = s.state := rfl
@[simp] theorem State.countRetry_result : (s.countRetry).result = s.result := rfl
@[simp] theorem State.countRetry_blockNumber : (s.countRetry).blockNumber = s.blockNumber := rfl
@[simp] theorem State.countRetry_currentTry : (s.countRetry).currentTry = s.currentTry + 1 := rfl
@[simp] theorem State.countRetry_maxRetryL : (s.countRetry).maxRetryL = s.maxRetryL := rfl
@[simp] theorem State.countRetry_fileSize : (s.countRetry).fileSize = s.fileSize := rfl
@[simp] theorem State.countRetry_totalBlocks : (s.countRetry).totalBlocks = s.totalBlocks := rfl
@[simp] theorem State.countRetry_srcPos : (s.countRetry).srcPos = s.srcPos := rfl
@[simp] theorem State.countRetry_chunkLen : (s.countRetry).chunkLen = s.chunkLen := rfl
@[simp] theorem State.countRetry_blockIndex : (s.countRetry).blockIndex = s.blockIndex := rfl
@[simp] theorem State.countRetry_eofReached : (s.countRetry).eofReached = s.eofReached := rfl
@[simp] theorem State.countRetry_runFlag : (s.countRetry).runFlag = s.runFlag := rfl
@[simp] theorem State.countRetry_pbuf : (s.countRetry).pbuf = s.pbuf := rfl
@[simp] theorem State.countRetry_blockCrc : (s.countRetry).blockCrc = s.blockCrc := rfl
@[simp] theorem State.countRetry_crcR : (s.countRetry).crcR = s.crcR := rfl
@[simp] theorem State.countRetry_runByte : (s.countRetry).runByte = s.runByte := rfl
@[simp] theorem State.countRetry_source : (s.countRetry).source = s.source := rfl
@[simp] theorem State.countRetry_inputs : (s.countRetry).inputs = s.inputs := rfl
@[simp] theorem State.countRetry_txAnswers : (s.countRetry).txAnswers = s.txAnswers := rfl
@[simp] theorem State.countRetry_outputs : (s.countRetry).outputs = s.outputs := rfl
@[simp] theorem State.countRetry_blockedWrite : (s.countRetry).blockedWrite = s.blockedWrite := rfl

end

/-! ### State.advanceBlock -/

section
variable (s : State)

@[simp] theorem State.advanceBlock_state : (s.advanceBlock).state = s.state := rfl
@[simp] theorem State.advanceBlock_result : (s.advanceBlock).result = s.result := rfl
@[simp] theorem State.advanceBlock_blockNumber : (s.advanceBlock).blockNumber = s.blockNumber + 1 := rfl
@[simp] theorem State.advanceBlock_currentTry : (s.advanceBlock).currentTry = 0 := rfl
@[simp] theorem State.advanceBlock_maxRetryL : (s.advanceBlock).maxRetryL = s.maxRetryL := rfl
@[simp] theorem State.advanceBlock_fileSize : (s.advanceBlock).fileSize = s.fileSize := rfl
@[simp] theorem State.advanceBlock_totalBlocks : (s.advanceBlock).totalBlocks = s.totalBlocks := rfl
@[simp] theorem State.advanceBlock_srcPos : (s.advanceBlock).srcPos = s.srcPos + s.chunkLen.setWidth 32 := rfl
@[simp] theorem State.advanceBlock_chunkLen : (s.advanceBlock).chunkLen = s.chunkLen := rfl
@[simp] theorem State.advanceBlock_blockIndex : (s.advanceBlock).blockIndex = s.blockIndex + 1 := rfl
@[simp] theorem State.advanceBlock_eofReached : (s.advanceBlock).eofReached = s.eofReached := rfl
@[simp] theorem State.advanceBlock_runFlag : (s.advanceBlock).runFlag = s.runFlag := rfl
@[simp] theorem State.advanceBlock_pbuf : (s.advanceBlock).pbuf = s.pbuf := rfl
@[simp] theorem State.advanceBlock_blockCrc : (s.advanceBlock).blockCrc = s.blockCrc := rfl
@[simp] theorem State.advanceBlock_crcR : (s.advanceBlock).crcR = s.crcR := rfl
@[simp] theorem State.advanceBlock_runByte : (s.advanceBlock).runByte = s.runByte := rfl
@[simp] theorem State.advanceBlock_source : (s.advanceBlock).source = s.source := rfl
@[simp] theorem State.advanceBlock_inputs : (s.advanceBlock).inputs = s.inputs := rfl
@[simp] theorem State.advanceBlock_txAnswers : (s.advanceBlock).txAnswers = s.txAnswers := rfl
@[simp] theorem State.advanceBlock_outputs : (s.advanceBlock).outputs = s.outputs := rfl
@[simp] theorem State.advanceBlock_blockedWrite : (s.advanceBlock).blockedWrite = s.blockedWrite := rfl

end

/-! ### State.startSession -/

section
variable (s : State) (run : Bool) (retry : Byte) (size : Word32)

@[simp] theorem State.startSession_state : (s.startSession run retry size).state = .awaitingStart := rfl
@[simp] theorem State.startSession_result : (s.startSession run retry size).result = .none := rfl
@[simp] theorem State.startSession_blockNumber : (s.startSession run retry size).blockNumber = 1 := rfl
@[simp] theorem State.startSession_currentTry : (s.startSession run retry size).currentTry = 0 := rfl
@[simp] theorem State.startSession_maxRetryL : (s.startSession run retry size).maxRetryL = retry := rfl
@[simp] theorem State.startSession_fileSize : (s.startSession run retry size).fileSize = size := rfl
@[simp] theorem State.startSession_totalBlocks : (s.startSession run retry size).totalBlocks = blockCount size := rfl
@[simp] theorem State.startSession_srcPos : (s.startSession run retry size).srcPos = 0 := rfl
@[simp] theorem State.startSession_chunkLen : (s.startSession run retry size).chunkLen = 0 := rfl
@[simp] theorem State.startSession_blockIndex : (s.startSession run retry size).blockIndex = 0 := rfl
@[simp] theorem State.startSession_eofReached : (s.startSession run retry size).eofReached = false := rfl
@[simp] theorem State.startSession_runFlag : (s.startSession run retry size).runFlag = run := rfl
@[simp] theorem State.startSession_pbuf : (s.startSession run retry size).pbuf = s.pbuf := rfl
@[simp] theorem State.startSession_blockCrc : (s.startSession run retry size).blockCrc = s.blockCrc := rfl
@[simp] theorem State.startSession_crcR : (s.startSession run retry size).crcR = s.crcR := rfl
@[simp] theorem State.startSession_runByte : (s.startSession run retry size).runByte = s.runByte := rfl
@[simp] theorem State.startSession_source : (s.startSession run retry size).source = s.source := rfl
@[simp] theorem State.startSession_inputs : (s.startSession run retry size).inputs = s.inputs := rfl
@[simp] theorem State.startSession_txAnswers : (s.startSession run retry size).txAnswers = s.txAnswers := rfl
@[simp] theorem State.startSession_outputs : (s.startSession run retry size).outputs = s.outputs := rfl
@[simp] theorem State.startSession_blockedWrite : (s.startSession run retry size).blockedWrite = s.blockedWrite := rfl

end

/-! ### State.hardReset -/

section
variable (s : State)

@[simp] theorem State.hardReset_state : (s.hardReset).state = State.reset.state := rfl
@[simp] theorem State.hardReset_result : (s.hardReset).result = State.reset.result := rfl
@[simp] theorem State.hardReset_blockNumber : (s.hardReset).blockNumber = State.reset.blockNumber := rfl
@[simp] theorem State.hardReset_currentTry : (s.hardReset).currentTry = State.reset.currentTry := rfl
@[simp] theorem State.hardReset_maxRetryL : (s.hardReset).maxRetryL = State.reset.maxRetryL := rfl
@[simp] theorem State.hardReset_fileSize : (s.hardReset).fileSize = State.reset.fileSize := rfl
@[simp] theorem State.hardReset_totalBlocks : (s.hardReset).totalBlocks = State.reset.totalBlocks := rfl
@[simp] theorem State.hardReset_srcPos : (s.hardReset).srcPos = State.reset.srcPos := rfl
@[simp] theorem State.hardReset_chunkLen : (s.hardReset).chunkLen = State.reset.chunkLen := rfl
@[simp] theorem State.hardReset_blockIndex : (s.hardReset).blockIndex = State.reset.blockIndex := rfl
@[simp] theorem State.hardReset_eofReached : (s.hardReset).eofReached = State.reset.eofReached := rfl
@[simp] theorem State.hardReset_runFlag : (s.hardReset).runFlag = State.reset.runFlag := rfl
@[simp] theorem State.hardReset_pbuf : (s.hardReset).pbuf = State.reset.pbuf := rfl
@[simp] theorem State.hardReset_blockCrc : (s.hardReset).blockCrc = State.reset.blockCrc := rfl
@[simp] theorem State.hardReset_crcR : (s.hardReset).crcR = State.reset.crcR := rfl
@[simp] theorem State.hardReset_runByte : (s.hardReset).runByte = s.runByte := rfl
@[simp] theorem State.hardReset_source : (s.hardReset).source = s.source := rfl
@[simp] theorem State.hardReset_inputs : (s.hardReset).inputs = s.inputs := rfl
@[simp] theorem State.hardReset_txAnswers : (s.hardReset).txAnswers = s.txAnswers := rfl
@[simp] theorem State.hardReset_outputs : (s.hardReset).outputs = s.outputs := rfl
@[simp] theorem State.hardReset_blockedWrite : (s.hardReset).blockedWrite = none := rfl

end

/-! ### State.blockIn -/

section
variable (s : State) (bs : List Byte)

@[simp] theorem State.blockIn_state : (s.blockIn bs).state = s.state := rfl
@[simp] theorem State.blockIn_result : (s.blockIn bs).result = s.result := rfl
@[simp] theorem State.blockIn_blockNumber : (s.blockIn bs).blockNumber = s.blockNumber := rfl
@[simp] theorem State.blockIn_currentTry : (s.blockIn bs).currentTry = s.currentTry := rfl
@[simp] theorem State.blockIn_maxRetryL : (s.blockIn bs).maxRetryL = s.maxRetryL := rfl
@[simp] theorem State.blockIn_fileSize : (s.blockIn bs).fileSize = s.fileSize := rfl
@[simp] theorem State.blockIn_totalBlocks : (s.blockIn bs).totalBlocks = s.totalBlocks := rfl
@[simp] theorem State.blockIn_srcPos : (s.blockIn bs).srcPos = s.srcPos := rfl
@[simp] theorem State.blockIn_chunkLen : (s.blockIn bs).chunkLen = s.chunkLen := rfl
@[simp] theorem State.blockIn_blockIndex : (s.blockIn bs).blockIndex = s.blockIndex := rfl
@[simp] theorem State.blockIn_eofReached : (s.blockIn bs).eofReached = s.eofReached := rfl
@[simp] theorem State.blockIn_runFlag : (s.blockIn bs).runFlag = s.runFlag := rfl
@[simp] theorem State.blockIn_pbuf : (s.blockIn bs).pbuf = s.pbuf := rfl
@[simp] theorem State.blockIn_blockCrc : (s.blockIn bs).blockCrc = s.blockCrc := rfl
@[simp] theorem State.blockIn_crcR : (s.blockIn bs).crcR = s.crcR := rfl
@[simp] theorem State.blockIn_runByte : (s.blockIn bs).runByte = s.runByte := rfl
@[simp] theorem State.blockIn_source : (s.blockIn bs).source = s.source := rfl
@[simp] theorem State.blockIn_inputs : (s.blockIn bs).inputs = s.inputs := rfl
@[simp] theorem State.blockIn_txAnswers : (s.blockIn bs).txAnswers = s.txAnswers := rfl
@[simp] theorem State.blockIn_outputs : (s.blockIn bs).outputs = s.outputs := rfl
@[simp] theorem State.blockIn_blockedWrite : (s.blockIn bs).blockedWrite =
    some { bytes := bs, rest := [] } := rfl

end

/-! ### State.postpone -/

section
variable (s : State) (p : RowPart)

@[simp] theorem State.postpone_state : (s.postpone p).state = s.state := rfl
@[simp] theorem State.postpone_result : (s.postpone p).result = s.result := rfl
@[simp] theorem State.postpone_blockNumber : (s.postpone p).blockNumber = s.blockNumber := rfl
@[simp] theorem State.postpone_currentTry : (s.postpone p).currentTry = s.currentTry := rfl
@[simp] theorem State.postpone_maxRetryL : (s.postpone p).maxRetryL = s.maxRetryL := rfl
@[simp] theorem State.postpone_fileSize : (s.postpone p).fileSize = s.fileSize := rfl
@[simp] theorem State.postpone_totalBlocks : (s.postpone p).totalBlocks = s.totalBlocks := rfl
@[simp] theorem State.postpone_srcPos : (s.postpone p).srcPos = s.srcPos := rfl
@[simp] theorem State.postpone_chunkLen : (s.postpone p).chunkLen = s.chunkLen := rfl
@[simp] theorem State.postpone_blockIndex : (s.postpone p).blockIndex = s.blockIndex := rfl
@[simp] theorem State.postpone_eofReached : (s.postpone p).eofReached = s.eofReached := rfl
@[simp] theorem State.postpone_runFlag : (s.postpone p).runFlag = s.runFlag := rfl
@[simp] theorem State.postpone_pbuf : (s.postpone p).pbuf = s.pbuf := rfl
@[simp] theorem State.postpone_blockCrc : (s.postpone p).blockCrc = s.blockCrc := rfl
@[simp] theorem State.postpone_crcR : (s.postpone p).crcR = s.crcR := rfl
@[simp] theorem State.postpone_runByte : (s.postpone p).runByte = s.runByte := rfl
@[simp] theorem State.postpone_source : (s.postpone p).source = s.source := rfl
@[simp] theorem State.postpone_inputs : (s.postpone p).inputs = s.inputs := rfl
@[simp] theorem State.postpone_txAnswers : (s.postpone p).txAnswers = s.txAnswers := rfl
@[simp] theorem State.postpone_outputs : (s.postpone p).outputs = s.outputs := rfl
@[simp] theorem State.postpone_blockedWrite : (s.postpone p).blockedWrite =
    s.blockedWrite.map fun w => { w with rest := w.rest ++ [p] } := rfl

end

end Sys2Proof.Machine
end

