-- ==== Sys2Proof/Laws/Ops.lean ====
section
/-! SUPPORT. One lemma per shared operation that says once everything it can do; later proofs cite these and unfold no
operation. -/

namespace Sys2Proof.Machine

/-! ## Flow -/

@[simp] theorem Flow.andThen_go (s : State) (p : RowPart) : (Flow.go s).andThen p = p.run s := rfl
@[simp] theorem Flow.andThen_ended (s : State) (p : RowPart) : (Flow.ended s).andThen p = .ended s := rfl
@[simp] theorem Flow.andThen_waiting (s : State) (p : RowPart) :
    (Flow.waiting s).andThen p = .waiting (s.postpone p) := rfl
@[simp] theorem Flow.andThen_stuck (f : Fault) (p : RowPart) : (Flow.stuck f).andThen p = .stuck f := rfl
@[simp] theorem Flow.outcome_go (s : State) : (Flow.go s).outcome = .next s := rfl
@[simp] theorem Flow.outcome_ended (s : State) : (Flow.ended s).outcome = .next s := rfl
@[simp] theorem Flow.outcome_waiting (s : State) : (Flow.waiting s).outcome = .next s := rfl
@[simp] theorem Flow.outcome_stuck (f : Fault) : (Flow.stuck f).outcome = .fault f := rfl

@[simp] theorem RowPart.run_enterSending (s : State) : RowPart.enterSending.run s = .go s.enterSending := rfl
@[simp] theorem RowPart.run_sendFrame (s : State) : RowPart.sendFrame.run s = Machine.sendFrame s := rfl
@[simp] theorem RowPart.run_sendRun (s : State) : RowPart.sendRun.run s = Machine.sendRun s := rfl
@[simp] theorem RowPart.run_enterDone (s : State) : RowPart.enterDone.run s = .go s.enterDone := rfl

/-- A piece of a step leaves a next state exactly where it goes on, ends the step or blocks. -/
theorem Flow.outcome_next {f : Flow} {t : State} (h : f.outcome = .next t) :
    f = .go t ∨ f = .ended t ∨ f = .waiting t := by
  cases f with
  | go s => simp only [outcome_go, Host.Outcome.next.injEq] at h; exact .inl (h ▸ rfl)
  | ended s => simp only [outcome_ended, Host.Outcome.next.injEq] at h; exact .inr (.inl (h ▸ rfl))
  | waiting s => simp only [outcome_waiting, Host.Outcome.next.injEq] at h; exact .inr (.inr (h ▸ rfl))
  | stuck f => cases h

/-- No part runs after a step has ended. -/
theorem foldl_andThen_ended (l : List RowPart) (s : State) : l.foldl Flow.andThen (.ended s) = .ended s := by
  induction l with
  | nil => rfl
  | cons p l ih => exact ih

/-- A step that blocks keeps the parts after its write, in order. -/
theorem foldl_andThen_waiting (l : List RowPart) (s : State) :
    l.foldl Flow.andThen (.waiting s) = .waiting { s with
      blockedWrite := s.blockedWrite.map fun w => { w with rest := w.rest ++ l } } := by
  induction l generalizing s with
  | nil => cases hw : s.blockedWrite <;> simp [← hw]
  | cons p l ih =>
    rw [List.foldl_cons, Flow.andThen_waiting, ih]
    cases hw : s.blockedWrite <;> simp [State.postpone, hw]

/-! ## The transport write -/

/-- Everything an answer to a write can come to. -/
theorem answerWrite_cases (a : TxAnswer) (bs : List Byte) (s : State) :
    (a = .ok ∧ answerWrite a bs s = .go (s.emit (.wire bs))) ∨
    (∃ k, a = .txfail k ∧
      answerWrite a bs s = .ended ((s.emit (.wire (strictPrefix k bs))).enterFailed .transportFailure)) ∨
    (∃ k, a = .cutByReset k ∧ answerWrite a bs s = .ended (s.emit (.wire (bs.take k))).hardReset) ∨
    (a = .pending ∧ answerWrite a bs s = .waiting (s.blockIn bs)) := by
  cases a with
  | ok => exact .inl ⟨rfl, rfl⟩
  | txfail k => exact .inr (.inl ⟨k, rfl, rfl⟩)
  | cutByReset k => exact .inr (.inr (.inl ⟨k, rfl, rfl⟩))
  | pending => exact .inr (.inr (.inr ⟨rfl, rfl⟩))

/-- Everything `TxWrite` can do. -/
theorem txWrite_cases (bs : List Byte) (s : State) :
    (s.nextAnswer = .ok ∧ txWrite bs s = .go (s.popAnswer.emit (.wire bs))) ∨
    (∃ k, s.nextAnswer = .txfail k ∧
      txWrite bs s = .ended ((s.popAnswer.emit (.wire (strictPrefix k bs))).enterFailed .transportFailure)) ∨
    (∃ k, s.nextAnswer = .cutByReset k ∧
      txWrite bs s = .ended (s.popAnswer.emit (.wire (bs.take k))).hardReset) ∨
    (s.nextAnswer = .pending ∧ txWrite bs s = .waiting (s.popAnswer.blockIn bs)) :=
  answerWrite_cases s.nextAnswer bs s.popAnswer

/-- Everything a write that leaves a step in a next state can have done. -/
theorem txWrite_next {bs : List Byte} {s t : State} (h : (txWrite bs s).outcome = .next t) :
    (s.nextAnswer = .ok ∧ t = { s with txAnswers := s.txAnswers.tail, outputs := s.outputs ++ [.wire bs] }) ∨
    (∃ k, s.nextAnswer = .txfail k ∧ t = { s with
      state := .failed
      result := .transportFailure
      txAnswers := s.txAnswers.tail
      outputs := s.outputs ++ [.wire (strictPrefix k bs)] }) ∨
    (∃ k, s.nextAnswer = .cutByReset k ∧ t = { State.reset with
      runByte := s.runByte
      source := s.source
      inputs := s.inputs
      txAnswers := s.txAnswers.tail
      outputs := s.outputs ++ [.wire (bs.take k)] }) ∨
    (s.nextAnswer = .pending ∧ t = { s with
      txAnswers := s.txAnswers.tail
      blockedWrite := some { bytes := bs, rest := [] } }) := by
  rcases txWrite_cases bs s with ⟨ha, hw⟩ | ⟨k, ha, hw⟩ | ⟨k, ha, hw⟩ | ⟨ha, hw⟩
  · rw [hw, Flow.outcome_go, Host.Outcome.next.injEq] at h
    exact .inl ⟨ha, h ▸ rfl⟩
  · rw [hw, Flow.outcome_ended, Host.Outcome.next.injEq] at h
    exact .inr (.inl ⟨k, ha, h ▸ rfl⟩)
  · rw [hw, Flow.outcome_ended, Host.Outcome.next.injEq] at h
    exact .inr (.inr (.inl ⟨k, ha, h ▸ rfl⟩))
  · rw [hw, Flow.outcome_waiting, Host.Outcome.next.injEq] at h
    exact .inr (.inr (.inr ⟨ha, h ▸ rfl⟩))

theorem txWrite_ok (bs : List Byte) {s : State} (h : s.nextAnswer = .ok) :
    txWrite bs s = .go (s.popAnswer.emit (.wire bs)) := by
  rw [txWrite, h]; rfl

/-- R214: a write that has no answer yet blocks the step. -/
theorem txWrite_pending (bs : List Byte) {s : State} (h : s.nextAnswer = .pending) :
    txWrite bs s = .waiting (s.popAnswer.blockIn bs) := by
  rw [txWrite, h]; rfl

/-- The answer to the next write depends on the list of answers alone. -/
theorem nextAnswer_congr {s t : State} (h : s.txAnswers = t.txAnswers) : s.nextAnswer = t.nextAnswer := by
  simp [State.nextAnswer, h]

/-- An answer other than `ok` stands in the queue. -/
theorem nextAnswer_head {s : State} {a : TxAnswer} (h : s.nextAnswer = a) (hne : a ≠ .ok) :
    s.txAnswers[0]? = some a := by
  rw [State.nextAnswer] at h
  cases hq : s.txAnswers with
  | nil => rw [hq] at h; exact absurd h.symm hne
  | cons b l => rw [hq] at h; simpa using h

theorem nextAnswer_of_writesOk {s : State} {n : Nat} (h : s.writesOk (n + 1) = true) : s.nextAnswer = .ok := by
  unfold State.writesOk at h
  unfold State.nextAnswer
  cases ha : s.txAnswers with
  | nil => rfl
  | cons a as =>
    rw [ha] at h
    simp only [List.take_succ_cons, List.all_cons, Bool.and_eq_true, beq_iff_eq] at h
    exact h.1

theorem writesOk_tail {s : State} {n : Nat} (h : s.writesOk (n + 1) = true) :
    (s.txAnswers.tail.take n).all (fun a => a == .ok) = true := by
  unfold State.writesOk at h
  cases ha : s.txAnswers with
  | nil => simp
  | cons a as =>
    rw [ha] at h
    simp only [List.take_succ_cons, List.all_cons, Bool.and_eq_true] at h
    exact h.2

/-- The delivered bytes of a failed write of a unit are fewer than all of them. -/
theorem strictPrefix_length_lt (k : Nat) {bs : List Byte} (h : bs ≠ []) :
    (strictPrefix k bs).length < bs.length := by
  have := List.length_pos_iff.mpr h
  simp only [strictPrefix, List.length_take]
  omega

/-- What a failed write delivers is a prefix of what was to be written. -/
theorem strictPrefix_isPrefix (k : Nat) (bs : List Byte) : strictPrefix k bs <+: bs :=
  List.take_prefix _ _

/-! ## CRGEN -/

/-- R117: a CLEAR and one UPDATE per byte leave `computeCRC16` of the bytes in `crc_r`, and nothing else changes. -/
theorem foldl_crcUpdate (bs : List Byte) (s : State) :
    bs.foldl (fun u b => u.crcUpdate b) s = { s with crcR := bs.foldl crcStep s.crcR } := by
  induction bs generalizing s with
  | nil => rfl
  | cons b bs ih => rw [List.foldl_cons, ih]; rfl

theorem latchBlockCrc_eq (bs : List Byte) (s : State) :
    latchBlockCrc bs s = { s with crcR := computeCRC16 bs, blockCrc := computeCRC16 bs } := by
  simp only [latchBlockCrc, foldl_crcUpdate]
  rfl

/-! ## PBUF -/

theorem mapM_of_forall {α β : Type} {f : α → Option β} {g : α → β} :
    ∀ {l : List α}, (∀ a ∈ l, f a = some (g a)) → l.mapM f = some (l.map g)
  | [], _ => rfl
  | a :: l, h => by
    rw [List.mapM_cons, h a List.mem_cons_self, mapM_of_forall fun b hb => h b (List.mem_cons_of_mem a hb)]
    rfl

theorem mapM_length {α β : Type} {f : α → Option β} :
    ∀ {l : List α} {bs : List β}, l.mapM f = some bs → bs.length = l.length
  | [], bs, h => by cases h; rfl
  | a :: l, bs, h => by
    rw [List.mapM_cons] at h
    cases ha : f a with
    | none => rw [ha] at h; cases h
    | some b =>
      cases hl : l.mapM f with
      | none => rw [ha, hl] at h; cases h
      | some bs' => rw [ha, hl] at h; cases h; simp [mapM_length hl]

/-- A loaded payload has 128 bytes. -/
theorem payload_length {s : State} {bs : List Byte} (h : payload s = some bs) : bs.length = Config.blockSize := by
  simpa using mapM_length h

/-- The payload is 128 reads of PBUF. -/
theorem payload_eq (s : State) :
    payload s = (List.range Config.blockSize).mapM fun i => s.pbuf.read .pbuf i := rfl

/-- The payload depends on PBUF alone. -/
theorem payload_congr {s t : State} (h : s.pbuf = t.pbuf) : payload s = payload t := by
  rw [payload_eq, payload_eq, h]

/-- PBUF bytes written in any order, each with the value its index has, read back. -/
theorem read_foldl_write (g : Nat → Byte) (l : List Nat) (m : Memory) (k : Nat) (h : k ∈ l) :
    (l.foldl (fun m k => m.write .pbuf k (g k)) m).read .pbuf k = some (g k) := by
  induction l generalizing m with
  | nil => cases h
  | cons a l ih =>
    rw [List.foldl_cons]
    by_cases hk : k ∈ l
    · exact ih _ hk
    · obtain rfl : k = a := by simpa [hk] using h
      clear ih h
      have hother : ∀ (l : List Nat) (m : Memory), k ∉ l →
          (l.foldl (fun m j => m.write .pbuf j (g j)) m).read .pbuf k = m.read .pbuf k := by
        intro l
        induction l with
        | nil => intro m _; rfl
        | cons b l ih =>
          intro m hb
          simp only [List.mem_cons, not_or] at hb
          rw [List.foldl_cons, ih _ hb.2, Memory.read_write_other m (g b) hb.1]
      rw [hother l _ hk, Memory.read_write_same_pbuf]

theorem wf_foldl_write (g : Nat → Byte) (l : List Nat) (m : Memory) (hl : ∀ k ∈ l, k < Config.blockSize)
    (hm : m.wf .pbuf = true) : (l.foldl (fun m k => m.write .pbuf k (g k)) m).wf .pbuf = true := by
  induction l generalizing m with
  | nil => exact hm
  | cons a l ih =>
    rw [List.foldl_cons]
    exact ih _ (fun k hk => hl k (List.mem_cons_of_mem a hk))
      (Memory.write_wf m a (g a) (hl a List.mem_cons_self) hm)

/-- The byte that stands at payload index k of the block at `pos` (R170). -/
def payloadByte (source : Memory) (fileSize pos k : Nat) : Byte :=
  if pos + k < fileSize then (source.read .src (pos + k)).getD 0 else Wire.sub

theorem blockPayload_eq (source : Memory) (fileSize pos : Nat) :
    blockPayload source fileSize pos = (List.range Config.blockSize).map (payloadByte source fileSize pos) := by
  unfold blockPayload payloadByte
  rfl

@[simp] theorem blockPayload_length (source : Memory) (fileSize pos : Nat) :
    (blockPayload source fileSize pos).length = Config.blockSize := by
  simp [blockPayload_eq]

theorem ofBytes_map_range (g : Nat → Byte) (n : Nat) :
    Memory.ofBytes .pbuf ((List.range n).map g) =
      (List.range n).foldl (fun m k => Memory.write .pbuf m k (g k)) [] := by
  have : ((List.range n).map g).zipIdx = (List.range n).map fun k => (g k, k) := by
    apply List.ext_getElem
    · simp
    · intro i h1 h2; simp
  rw [Memory.ofBytes, this, List.foldl_map]

/-- A canonical PBUF after every byte of it has been written. -/
theorem foldl_write_eq_ofBytes (g : Nat → Byte) {m : Memory} (hm : m.wf .pbuf = true) :
    (List.range Config.blockSize).foldl (fun m k => Memory.write .pbuf m k (g k)) m =
      Memory.ofBytes .pbuf ((List.range Config.blockSize).map g) := by
  have hl : ∀ k ∈ List.range Config.blockSize, k < Config.blockSize := fun k => List.mem_range.mp
  rw [ofBytes_map_range]
  have h1 := wf_foldl_write g _ m hl hm
  have h2 := wf_foldl_write g _ [] hl rfl
  refine Memory.eq_of_read h1 h2 fun a => ?_
  by_cases ha : a < Config.blockSize
  · rw [read_foldl_write g _ m a (List.mem_range.mpr ha), read_foldl_write g _ [] a (List.mem_range.mpr ha)]
  · rw [Memory.read_outside h1 (Nat.le_of_not_lt ha), Memory.read_outside h2 (Nat.le_of_not_lt ha)]

/-! ## The block loader -/

theorem chunkLength_toNat (fs pos : Word32) :
    (chunkLength fs pos).toNat = min Config.blockSize (fs.toNat - pos.toNat) := by
  have : Config.blockSize = 128 := rfl
  simp only [chunkLength, BitVec.toNat_ofNat]
  omega

theorem blockCount_toNat (f : Word32) : (blockCount f).toNat = (f.toNat + 127) / 128 := by
  have := f.isLt
  simp only [blockCount, Config.blockSize, BitVec.toNat_ofNat]
  omega

/-- One turn of the loader's loop never fails where `chunkLen` is the chunk's length. -/
theorem fillByte_eq (s : State) (k : Nat) (hk : k < Config.blockSize)
    (hc : s.chunkLen = chunkLength s.fileSize s.srcPos) :
    fillByte s k =
      some (s.pbufWrite k (payloadByte s.source s.fileSize.toNat s.srcPos.toNat k)) := by
  have hn : s.chunkLen.toNat = min Config.blockSize (s.fileSize.toNat - s.srcPos.toNat) := by
    rw [hc, chunkLength_toNat]
  unfold fillByte payloadByte
  by_cases h : s.srcPos.toNat + k < s.fileSize.toNat
  · rw [if_pos (by omega), if_pos h, srcRead, if_pos h]
    cases hr : s.source.read .src (s.srcPos.toNat + k) with
    | some v => rfl
    | none =>
      exfalso
      simp only [Memory.read, Space.unlisted] at hr
      split at hr <;> cases hr
  · rw [if_neg (by omega), if_neg h]

theorem foldlM_fillByte (l : List Nat) (hl : ∀ k ∈ l, k < Config.blockSize) (s : State)
    (hc : s.chunkLen = chunkLength s.fileSize s.srcPos) :
    l.foldlM fillByte s = some { s with
      pbuf := l.foldl (fun m k => Memory.write .pbuf m k (payloadByte s.source s.fileSize.toNat s.srcPos.toNat k))
        s.pbuf } := by
  induction l generalizing s with
  | nil => rfl
  | cons a l ih =>
    rw [List.foldlM_cons, fillByte_eq s a (hl a List.mem_cons_self) hc]
    exact ih (fun k hk => hl k (List.mem_cons_of_mem a hk)) (s.pbufWrite a _) hc

/-- PBUF after the loader's loop. -/
def filledPbuf (source : Memory) (fileSize pos : Nat) (m : Memory) : Memory :=
  (List.range Config.blockSize).foldl (fun m k => Memory.write .pbuf m k (payloadByte source fileSize pos k)) m

theorem mapM_read_filledPbuf (source : Memory) (fileSize pos : Nat) (m : Memory) :
    ((List.range Config.blockSize).mapM fun i => (filledPbuf source fileSize pos m).read .pbuf i) =
      some (blockPayload source fileSize pos) := by
  rw [blockPayload_eq]
  exact mapM_of_forall fun k hk => read_foldl_write (payloadByte source fileSize pos) _ m k hk

theorem filledPbuf_wf (source : Memory) (fileSize pos : Nat) {m : Memory} (hm : m.wf .pbuf = true) :
    (filledPbuf source fileSize pos m).wf .pbuf = true :=
  wf_foldl_write _ _ _ (fun _ => List.mem_range.mp) hm

/-- A canonical PBUF does not remember what it held before a load. -/
theorem filledPbuf_eq_ofBytes (source : Memory) (fileSize pos : Nat) {m : Memory} (hm : m.wf .pbuf = true) :
    filledPbuf source fileSize pos m = Memory.ofBytes .pbuf (blockPayload source fileSize pos) := by
  rw [blockPayload_eq]
  exact foldl_write_eq_ofBytes _ hm

/-- Everything `LoadBlock()` does, whatever PBUF held: it goes on, with the block's payload in PBUF. -/
theorem loadBlock_eq (s : State) :
    loadBlock s = .go { s with
      chunkLen := chunkLength s.fileSize s.srcPos
      pbuf := filledPbuf s.source s.fileSize.toNat s.srcPos.toNat s.pbuf
      crcR := computeCRC16 (blockPayload s.source s.fileSize.toNat s.srcPos.toNat)
      blockCrc := computeCRC16 (blockPayload s.source s.fileSize.toNat s.srcPos.toNat) } := by
  have hf : fillPbuf s.measureChunk =
      some { s with
        chunkLen := chunkLength s.fileSize s.srcPos
        pbuf := filledPbuf s.source s.fileSize.toNat s.srcPos.toNat s.pbuf } :=
    foldlM_fillByte _ (fun _ => List.mem_range.mp) s.measureChunk rfl
  simp only [loadBlock, hf, payload_eq, mapM_read_filledPbuf, latchBlockCrc_eq]

/-- The frame of `LoadBlock()`: it always goes on, and writes `chunkLen`, PBUF, `crc_r` and `blockCrc` only, the last
two with one value. -/
theorem loadBlock_frame (s : State) :
    ∃ c p r, loadBlock s = .go { s with chunkLen := c, pbuf := p, crcR := r, blockCrc := r } :=
  ⟨_, _, _, loadBlock_eq s⟩

/-- `LoadBlock()` on a canonical PBUF. -/
theorem loadBlock_canonical {s : State} (hm : s.pbuf.wf .pbuf = true) : loadBlock s = .go s.loaded := by
  rw [loadBlock_eq, filledPbuf_eq_ofBytes _ _ _ hm]
  rfl

theorem ofBytes_blockPayload (source : Memory) (fileSize pos : Nat) :
    Memory.ofBytes .pbuf (blockPayload source fileSize pos) = filledPbuf source fileSize pos [] :=
  (filledPbuf_eq_ofBytes source fileSize pos Memory.wf_nil).symm

/-- The payload read back after a load is the block's. -/
theorem payload_loaded (s : State) :
    payload s.loaded = some (blockPayload s.source s.fileSize.toNat s.srcPos.toNat) := by
  rw [payload_eq]
  simp only [State.loaded, ofBytes_blockPayload]
  exact mapM_read_filledPbuf _ _ _ _

theorem loaded_wf (s : State) : s.loaded.pbuf.wf .pbuf = true := by
  simp only [State.loaded, ofBytes_blockPayload]
  exact filledPbuf_wf _ _ _ Memory.wf_nil

/-! ## The transmitter -/

theorem frame_of_payload {s : State} {bs : List Byte} (h : payload s = some bs) :
    frame s = some (frameBytes s.blockNumber bs s.blockCrc) := by
  simp [frame, h]

/-- Everything `SendFrame()` can do. -/
theorem sendFrame_cases (s : State) :
    (payload s = none ∧ sendFrame s = .stuck .pbufUnwritten) ∨
    (∃ bs, payload s = some bs ∧
      sendFrame s = txWrite (frameBytes s.blockNumber bs s.blockCrc) s.reportProgress) := by
  cases h : payload s with
  | none => exact .inl ⟨rfl, by simp [sendFrame, frame, h]⟩
  | some bs => exact .inr ⟨bs, rfl, by simp [sendFrame, frame_of_payload h]⟩

theorem sendFrame_ok {s : State} {bs : List Byte} (h : payload s = some bs) (ha : s.nextAnswer = .ok) :
    sendFrame s = .go (s.sentFrame (frameBytes s.blockNumber bs s.blockCrc)) := by
  have hp : s.reportProgress.nextAnswer = .ok := ha
  rw [sendFrame, frame_of_payload h]
  simp only [txWrite_ok _ hp]
  simp [State.sentFrame, State.reportProgress, State.emit, State.popAnswer]

/-- R214: a block attempt whose write has no answer yet: the progress event is out, the frame waits. -/
theorem sendFrame_pending {s : State} {bs : List Byte} (h : payload s = some bs) (ha : s.nextAnswer = .pending) :
    sendFrame s = .waiting (s.blockedInFrame (frameBytes s.blockNumber bs s.blockCrc)) := by
  have hp : s.reportProgress.nextAnswer = .pending := ha
  rw [sendFrame, frame_of_payload h]
  simp only [txWrite_pending _ hp]
  rfl

/-- Everything a block attempt that leaves a step in a next state can have done. -/
theorem sendFrame_next {s t : State} (h : (sendFrame s).outcome = .next t) :
    ∃ bs, payload s = some bs ∧
      ((s.nextAnswer = .ok ∧ t = s.sentFrame (frameBytes s.blockNumber bs s.blockCrc)) ∨
      (∃ k, s.nextAnswer = .txfail k ∧ t = { s with
        state := .failed
        result := .transportFailure
        txAnswers := s.txAnswers.tail
        outputs := s.outputs ++ [.progress s.blockIndex s.totalBlocks,
          .wire (strictPrefix k (frameBytes s.blockNumber bs s.blockCrc))] }) ∨
      (∃ k, s.nextAnswer = .cutByReset k ∧ t = { State.reset with
        runByte := s.runByte
        source := s.source
        inputs := s.inputs
        txAnswers := s.txAnswers.tail
        outputs := s.outputs ++ [.progress s.blockIndex s.totalBlocks,
          .wire ((frameBytes s.blockNumber bs s.blockCrc).take k)] }) ∨
      (s.nextAnswer = .pending ∧ t = s.blockedInFrame (frameBytes s.blockNumber bs s.blockCrc))) := by
  rcases sendFrame_cases s with ⟨_, hs⟩ | ⟨bs, hp, hs⟩
  · rw [hs] at h; cases h
  · rw [hs] at h
    refine ⟨bs, hp, ?_⟩
    rcases txWrite_next h with ⟨ha, ht⟩ | ⟨k, ha, ht⟩ | ⟨k, ha, ht⟩ | ⟨ha, ht⟩
    · exact .inl ⟨ha, by simp [ht, State.sentFrame, State.reportProgress, State.emit]⟩
    · exact .inr (.inl ⟨k, ha, by simp [ht, State.reportProgress, State.emit]⟩)
    · exact .inr (.inr (.inl ⟨k, ha, by simp [ht, State.reportProgress, State.emit]⟩))
    · exact .inr (.inr (.inr ⟨ha, by simp [ht, State.blockedInFrame, State.reportProgress, State.emit]⟩))

/-- R178: RUN is one write where `runFlag` is set, and nothing where it is not. -/
theorem sendRun_eq (s : State) : sendRun s = if s.runFlag then txWrite [s.runByte] s else .go s := rfl

/-- `EnterTermination()` as its writes. -/
theorem enterTermination_eq (s : State) :
    enterTermination s =
      ((txWrite [Wire.eot] s.enterTerminationAck).andThen .sendRun).andThen .enterDone := rfl

/-- `EnterTermination()` where every write is answered `ok`. -/
theorem enterTermination_ok {s : State} (h : s.writesOk s.terminationUnits.length = true) :
    enterTermination s = .go s.terminated := by
  rw [enterTermination_eq]
  cases hr : s.runFlag with
  | true =>
    have hl : s.terminationUnits = [[Wire.eot], [s.runByte]] := by simp [State.terminationUnits, State.runUnits, hr]
    rw [hl] at h
    have h1 : s.enterTerminationAck.nextAnswer = .ok :=
      nextAnswer_of_writesOk (s := s) (n := 1) h
    have h2 : (s.enterTerminationAck.popAnswer.emit (.wire [Wire.eot])).nextAnswer
        = .ok :=
      nextAnswer_of_writesOk (n := 0) (writesOk_tail (s := s) (n := 1) h)
    rw [txWrite_ok _ h1, Flow.andThen_go, RowPart.run_sendRun, sendRun_eq, if_pos (by simpa using hr),
      txWrite_ok _ h2]
    have ht : s.txAnswers.tail.tail = s.txAnswers.drop 2 := by rw [← List.drop_one, ← List.drop_one, List.drop_drop]
    simp [ht, State.terminated, hl, State.enterDone, State.emit, State.popAnswer, State.enterTerminationAck]
  | false =>
    have hl : s.terminationUnits = [[Wire.eot]] := by simp [State.terminationUnits, State.runUnits, hr]
    rw [hl] at h
    have h1 : s.enterTerminationAck.nextAnswer = .ok :=
      nextAnswer_of_writesOk (s := s) (n := 0) h
    rw [txWrite_ok _ h1, Flow.andThen_go, RowPart.run_sendRun, sendRun_eq, if_neg (by simpa using hr)]
    simp [State.terminated, hl, State.enterDone, State.emit, State.popAnswer, State.enterTerminationAck]

/-- Everything the RUN unit and `state <- DONE` can have done where they leave a next state: it completed, or the write
of RUN failed, was cut or blocks. -/
theorem sendRun_enterDone_next {s t : State} (h : ((sendRun s).andThen .enterDone).outcome = .next t) :
    (t = { s with
      state := .done
      result := .success
      txAnswers := s.txAnswers.drop s.runUnits.length
      outputs := s.outputs ++ s.runUnits.map .wire }) ∨
    (s.runFlag = true ∧ ∃ k, s.nextAnswer = .txfail k ∧ t = { s with
      state := .failed
      result := .transportFailure
      txAnswers := s.txAnswers.tail
      outputs := s.outputs ++ [.wire []] }) ∨
    (s.runFlag = true ∧ ∃ k, s.nextAnswer = .cutByReset k ∧ t = { State.reset with
      runByte := s.runByte
      source := s.source
      inputs := s.inputs
      txAnswers := s.txAnswers.tail
      outputs := s.outputs ++ [.wire ([s.runByte].take k)] }) ∨
    (s.runFlag = true ∧ s.nextAnswer = .pending ∧ t = { s with
      txAnswers := s.txAnswers.tail
      blockedWrite := some { bytes := [s.runByte], rest := [.enterDone] } }) := by
  rw [sendRun_eq] at h
  cases hr : s.runFlag with
  | false =>
    rw [if_neg (by simp [hr]), Flow.andThen_go, RowPart.run_enterDone, Flow.outcome_go, Host.Outcome.next.injEq] at h
    exact .inl (h ▸ by simp [State.runUnits, hr, State.enterDone])
  | true =>
    rw [if_pos (by simpa using hr)] at h
    rcases txWrite_cases [s.runByte] s with ⟨hb, hv⟩ | ⟨k, hb, hv⟩ | ⟨k, hb, hv⟩ | ⟨hb, hv⟩
    · rw [hv, Flow.andThen_go, RowPart.run_enterDone, Flow.outcome_go, Host.Outcome.next.injEq] at h
      exact .inl (h ▸ by simp [State.runUnits, hr, State.enterDone, State.emit, State.popAnswer])
    · rw [hv, Flow.andThen_ended, Flow.outcome_ended, Host.Outcome.next.injEq] at h
      exact .inr (.inl ⟨rfl, k, hb, h ▸ by
        simp [strictPrefix, hr, State.enterFailed, State.emit, State.popAnswer]⟩)
    · rw [hv, Flow.andThen_ended, Flow.outcome_ended, Host.Outcome.next.injEq] at h
      exact .inr (.inr (.inl ⟨rfl, k, hb, h ▸ by simp [State.hardReset, State.emit, State.popAnswer]⟩))
    · rw [hv, Flow.andThen_waiting, Flow.outcome_waiting, Host.Outcome.next.injEq] at h
      exact .inr (.inr (.inr ⟨rfl, hb, h ▸ by simp [hr, State.postpone, State.blockIn, State.popAnswer]⟩))

/-- Everything the parts of a termination after its first write can have done, for any answer to that write. -/
theorem termination_parts_next {a : TxAnswer} {s t : State}
    (h : (((answerWrite a [Wire.eot] s).andThen .sendRun).andThen .enterDone).outcome = .next t) :
    (a = .ok ∧
      (((sendRun { s with outputs := s.outputs ++ [.wire [Wire.eot]] }).andThen .enterDone).outcome = .next t)) ∨
    (∃ k, a = .txfail k ∧ t = { s with
      state := .failed
      result := .transportFailure
      outputs := s.outputs ++ [.wire []] }) ∨
    (∃ k, a = .cutByReset k ∧ t = { State.reset with
      runByte := s.runByte
      source := s.source
      inputs := s.inputs
      txAnswers := s.txAnswers
      outputs := s.outputs ++ [.wire ([Wire.eot].take k)] }) ∨
    (a = .pending ∧ t = { s with
      blockedWrite := some { bytes := [Wire.eot], rest := [.sendRun, .enterDone] } }) := by
  rcases answerWrite_cases a [Wire.eot] s with ⟨ha, hw⟩ | ⟨k, ha, hw⟩ | ⟨k, ha, hw⟩ | ⟨ha, hw⟩
  · rw [hw, Flow.andThen_go, RowPart.run_sendRun] at h
    exact .inl ⟨ha, h⟩
  · rw [hw, Flow.andThen_ended, Flow.andThen_ended, Flow.outcome_ended, Host.Outcome.next.injEq] at h
    exact .inr (.inl ⟨k, ha, h ▸ by simp [strictPrefix, State.enterFailed, State.emit]⟩)
  · rw [hw, Flow.andThen_ended, Flow.andThen_ended, Flow.outcome_ended, Host.Outcome.next.injEq] at h
    exact .inr (.inr (.inl ⟨k, ha, h ▸ by simp [State.hardReset, State.emit]⟩))
  · rw [hw, Flow.andThen_waiting, Flow.andThen_waiting, Flow.outcome_waiting, Host.Outcome.next.injEq] at h
    exact .inr (.inr (.inr ⟨ha, h ▸ by simp [State.postpone, State.blockIn]⟩))

/-- Everything `EnterTermination()` can have done where it leaves a step in a next state: it completed, or one of its
writes failed, was cut or blocks. -/
theorem enterTermination_next {s t : State} (h : (enterTermination s).outcome = .next t) :
    t = { s with
      state := .done
      result := .success
      txAnswers := s.txAnswers.drop s.terminationUnits.length
      outputs := s.outputs ++ s.terminationUnits.map .wire } ∨
    (∃ k n, s.txAnswers[n]? = some (.txfail k) ∧ (s.txAnswers.take n).all (fun a => a == .ok) = true ∧
      ∃ o, t = { s with
        state := .failed
        result := .transportFailure
        txAnswers := s.txAnswers.drop (n + 1)
        outputs := s.outputs ++ o } ∧ (o = [.wire []] ∨ o = [.wire [Wire.eot], .wire []])) ∨
    (∃ k n, s.txAnswers[n]? = some (.cutByReset k) ∧ (s.txAnswers.take n).all (fun a => a == .ok) = true ∧
      ∃ o, t = { State.reset with
        runByte := s.runByte
        source := s.source
        inputs := s.inputs
        txAnswers := s.txAnswers.drop (n + 1)
        outputs := s.outputs ++ o } ∧ (o = [.wire ([Wire.eot].take k)] ∨
          o = [.wire [Wire.eot], .wire ([s.runByte].take k)])) ∨
    (.pending ∈ s.txAnswers ∧
      (t = { s with
        state := .awaitingTerminationAck
        txAnswers := s.txAnswers.tail
        blockedWrite := some { bytes := [Wire.eot], rest := [.sendRun, .enterDone] } } ∨
      s.runFlag = true ∧ t = { s with
        state := .awaitingTerminationAck
        txAnswers := s.txAnswers.drop 2
        outputs := s.outputs ++ [.wire [Wire.eot]]
        blockedWrite := some { bytes := [s.runByte], rest := [.enterDone] } })) := by
  have hd : s.txAnswers.drop 2 = s.txAnswers.tail.tail := by rw [← List.drop_one, ← List.drop_one, List.drop_drop]
  rcases termination_parts_next (a := s.nextAnswer) (s := s.enterTerminationAck.popAnswer) h with
    ⟨ha, hn⟩ | ⟨k, ha, ht⟩ | ⟨k, ha, ht⟩ | ⟨ha, ht⟩
  · have hsecond : ∀ a, a ≠ .ok → s.txAnswers.tail.headD .ok = a →
        s.txAnswers[1]? = some a ∧ (s.txAnswers.take 1).all (fun a => a == .ok) = true := by
      intro a hne hb
      rw [State.nextAnswer] at ha
      match hq : s.txAnswers, ha, hb with
      | [], _, hb => exact absurd hb.symm hne
      | [_], _, hb => exact absurd hb.symm hne
      | b :: c :: l, ha, hb =>
        simp only [List.headD_cons] at ha hb
        simp [ha, ← hb]
    rcases sendRun_enterDone_next hn with ht | ⟨hr, k, hb, ht⟩ | ⟨hr, k, hb, ht⟩ | ⟨hr, hb, ht⟩
    · refine .inl (ht ▸ ?_)
      cases hr : s.runFlag <;>
        simp [State.terminationUnits, State.runUnits, hr, hd, State.popAnswer, State.enterTerminationAck]
    · obtain ⟨hi, ho⟩ := hsecond _ (by simp) hb
      exact .inr (.inl ⟨k, 1, hi, ho, [.wire [Wire.eot], .wire []], ht ▸ by
        simp [hd, State.popAnswer, State.enterTerminationAck], .inr rfl⟩)
    · obtain ⟨hi, ho⟩ := hsecond _ (by simp) hb
      exact .inr (.inr (.inl ⟨k, 1, hi, ho, [.wire [Wire.eot], .wire ([s.runByte].take k)], ht ▸ by
        simp [hd, State.popAnswer, State.enterTerminationAck], .inr rfl⟩))
    · obtain ⟨hi, -⟩ := hsecond _ (by simp) hb
      exact .inr (.inr (.inr ⟨List.mem_of_getElem? hi, .inr ⟨hr, ht ▸ by
        simp [hd, State.popAnswer, State.enterTerminationAck]⟩⟩))
  · exact .inr (.inl ⟨k, 0, nextAnswer_head ha (by simp), rfl, [.wire []], ht ▸ by
      simp [State.popAnswer, State.enterTerminationAck], .inl rfl⟩)
  · exact .inr (.inr (.inl ⟨k, 0, nextAnswer_head ha (by simp), rfl, [.wire ([Wire.eot].take k)], ht ▸ by
      simp [State.popAnswer, State.enterTerminationAck], .inl rfl⟩))
  · exact .inr (.inr (.inr ⟨List.mem_of_getElem? (nextAnswer_head ha (by simp)), .inl (ht ▸ by
      simp)⟩))

/-! ## The rest of a blocked step -/

/-- R214: a blocked write of which nothing else is left goes by its answer alone. -/
theorem resumeWrite_last {w : BlockedWrite} (h : w.rest = []) (a : TxAnswer) (s : State) :
    resumeWrite w a s = answerWrite a w.bytes { s with blockedWrite := none } := by
  rw [resumeWrite, h]; rfl

/-- Everything the rest of a blocked step can do at its write. -/
theorem resumeWrite_cases (w : BlockedWrite) (a : TxAnswer) (s : State) :
    (a = .ok ∧ resumeWrite w a s = w.rest.foldl Flow.andThen
      (.go { s with blockedWrite := none, outputs := s.outputs ++ [.wire w.bytes] })) ∨
    (∃ k, a = .txfail k ∧ resumeWrite w a s = .ended { s with
      state := .failed
      result := .transportFailure
      blockedWrite := none
      outputs := s.outputs ++ [.wire (strictPrefix k w.bytes)] }) ∨
    (∃ k, a = .cutByReset k ∧ resumeWrite w a s = .ended { State.reset with
      runByte := s.runByte
      source := s.source
      inputs := s.inputs
      txAnswers := s.txAnswers
      outputs := s.outputs ++ [.wire (w.bytes.take k)] }) ∨
    (a = .pending ∧ resumeWrite w a s = .waiting { s with blockedWrite := some w }) := by
  unfold resumeWrite
  cases a with
  | ok => exact .inl ⟨rfl, rfl⟩
  | txfail k => exact .inr (.inl ⟨k, rfl, foldl_andThen_ended _ _⟩)
  | cutByReset k => exact .inr (.inr (.inl ⟨k, rfl, foldl_andThen_ended _ _⟩))
  | pending => exact .inr (.inr (.inr ⟨rfl, foldl_andThen_waiting _ _⟩))

end Sys2Proof.Machine
end

