-- ==== Sys2Proof/Laws/Exec.lean ====
section
/-! SUPPORT. What each meaning can have done where it answers a next state, in terms of the shared operations. -/

namespace Sys2Proof.Machine

/-- Everything RX_HANDSHAKE can have done. -/
theorem execRxHandshake_next {s t : State} (h : exec .rxHandshake s = .next t) :
    (s.state ≠ .awaitingStart ∧ t = s) ∨
    (s.state = .awaitingStart ∧ s.fileSize = 0 ∧ (enterTermination (s.rewind.setEof true)).outcome = .next t) ∨
    (s.state = .awaitingStart ∧ s.fileSize ≠ 0 ∧
      (((loadBlock (s.rewind.setEof false)).andThen .enterSending).andThen .sendFrame).outcome = .next t) := by
  change execRxHandshake s = _ at h
  unfold execRxHandshake at h
  cases hs : s.state with
  | awaitingStart =>
    rw [hs] at h
    unfold beginTransfer at h
    by_cases hf : s.fileSize = 0
    · rw [if_pos hf] at h; exact .inr (.inl ⟨rfl, hf, h⟩)
    · rw [if_neg hf] at h; exact .inr (.inr ⟨rfl, hf, h⟩)
  | _ => rw [hs] at h; cases h; exact .inl ⟨by simp, rfl⟩

/-- Everything RX_ACK can have done. -/
theorem execRxAck_next {s t : State} (h : exec .rxAck s = .next t) :
    (s.state ≠ .sendingBlock ∧ t = s) ∨
    (s.state = .sendingBlock ∧ s.fileSize.toNat ≤ s.advanceBlock.srcPos.toNat ∧
      (enterTermination (s.advanceBlock.setEof true)).outcome = .next t) ∨
    (s.state = .sendingBlock ∧ s.advanceBlock.srcPos.toNat < s.fileSize.toNat ∧
      ((loadBlock s.advanceBlock).andThen .sendFrame).outcome = .next t) := by
  change execRxAck s = _ at h
  unfold execRxAck at h
  cases hs : s.state with
  | sendingBlock =>
    rw [hs] at h
    unfold acknowledgeBlock at h
    by_cases hf : s.fileSize.toNat ≤ s.advanceBlock.srcPos.toNat
    · rw [if_pos (by simpa [State.sourceExhausted] using hf)] at h; exact .inr (.inl ⟨rfl, hf, h⟩)
    · rw [if_neg (by simpa [State.sourceExhausted] using hf)] at h
      exact .inr (.inr ⟨rfl, Nat.lt_of_not_le hf, h⟩)
  | _ => rw [hs] at h; cases h; exact .inl ⟨by simp, rfl⟩

/-- Everything RX_NAK can have done. -/
theorem execRxNak_next {s t : State} (h : exec .rxNak s = .next t) :
    (s.state ≠ .sendingBlock ∧ t = s) ∨
    (s.state = .sendingBlock ∧ s.maxRetryL.toNat ≤ s.currentTry.toNat ∧ t = s.enterFailed .retryLimitExceeded) ∨
    (s.state = .sendingBlock ∧ s.currentTry.toNat < s.maxRetryL.toNat ∧
      (sendFrame s.countRetry).outcome = .next t) := by
  change execRxNak s = _ at h
  unfold execRxNak at h
  cases hs : s.state with
  | sendingBlock =>
    rw [hs] at h
    unfold retryBlock at h
    by_cases hf : s.maxRetryL.toNat ≤ s.currentTry.toNat
    · rw [if_pos hf] at h; cases h; exact .inr (.inl ⟨rfl, hf, rfl⟩)
    · rw [if_neg hf] at h; exact .inr (.inr ⟨rfl, Nat.lt_of_not_le hf, h⟩)
  | _ => rw [hs] at h; cases h; exact .inl ⟨by simp, rfl⟩

/-- Everything RX_CAN can have done. -/
theorem execRxCan_next {s t : State} (h : exec .rxCan s = .next t) :
    (s.state.reading = false ∧ t = s) ∨ (s.state.reading = true ∧ t = s.enterCancelled) := by
  change execRxCan s = _ at h
  unfold execRxCan at h
  split at h <;> cases h
  · exact .inr ⟨‹_›, rfl⟩
  · rename_i hr; exact .inl ⟨by simpa using hr, rfl⟩

/-- Everything RX_FAIL can have done. -/
theorem execRxFail_next {s t : State} (h : exec .rxFail s = .next t) :
    (s.state.reading = false ∧ t = s) ∨ (s.state.reading = true ∧ t = s.enterFailed .transportFailure) := by
  change execRxFail s = _ at h
  unfold execRxFail at h
  split at h <;> cases h
  · exact .inr ⟨‹_›, rfl⟩
  · rename_i hr; exact .inl ⟨by simpa using hr, rfl⟩

/-- Everything HOST_START can have done. -/
theorem execHostStart_next {s t : State} {status : SrcStatus} {run : Bool} {maxRetry : Byte} {size : Word32}
    (h : exec (.hostStart status run maxRetry size) s = .next t) :
    s.state.idleLike = true ∧
    ((status = .ok ∧ t = s.startSession run maxRetry size) ∨
    (status = .notFound ∧ t = s.enterFailed .sourceNotFound) ∨
    (status = .openFailed ∧ t = s.enterFailed .sourceOpenFailed)) := by
  change execHostStart status run maxRetry size s = _ at h
  unfold execHostStart at h
  split at h
  · refine ⟨‹_›, ?_⟩
    cases status <;> cases h
    · exact .inl ⟨rfl, rfl⟩
    · exact .inr (.inl ⟨rfl, rfl⟩)
    · exact .inr (.inr ⟨rfl, rfl⟩)
  · cases h

end Sys2Proof.Machine
end

