-- ==== Sys2Proof/Laws/Fetch.lean ====
section
/-! SUPPORT. What the front of a step takes, and everything a step can do. -/

namespace Sys2Proof.Machine

/-- The oldest input comes next where the engine can take it. -/
theorem takeInput_head {p : Input → Bool} {i : Input} (rest : List Input) (h : p i = true) :
    takeInput p (i :: rest) = some (i, rest) := by
  rw [takeInput, if_pos h]

/-- An input the engine cannot take is passed over and stays. -/
theorem takeInput_skip {p : Input → Bool} {i : Input} (rest : List Input) (h : p i = false) :
    takeInput p (i :: rest) = (takeInput p rest).map fun q => (q.1, i :: q.2) := by
  rw [takeInput, if_neg (by simp [h])]
  cases takeInput p rest with
  | none => rfl
  | some q => rfl

/-- What is taken can be taken and was there; what is left was there. -/
theorem takeInput_mem {p : Input → Bool} {l : List Input} {i : Input} {rest : List Input}
    (h : takeInput p l = some (i, rest)) : p i = true ∧ i ∈ l ∧ ∀ j ∈ rest, j ∈ l := by
  induction l generalizing i rest with
  | nil => cases h
  | cons j l ih =>
    cases hj : p j with
    | true =>
      rw [takeInput_head l hj] at h; cases h
      exact ⟨hj, List.mem_cons_self, fun k hk => List.mem_cons_of_mem _ hk⟩
    | false =>
      rw [takeInput_skip l hj] at h
      cases hl : takeInput p l with
      | none => rw [hl] at h; cases h
      | some q =>
        rw [hl] at h; cases h
        have := ih hl
        refine ⟨this.1, List.mem_cons_of_mem _ this.2.1, fun k hk => ?_⟩
        rcases List.mem_cons.mp hk with rfl | hk
        · exact List.mem_cons_self
        · exact List.mem_cons_of_mem _ (this.2.2 k hk)

/-- Where the engine can take nothing of what is there, it takes nothing. -/
theorem takeInput_none {p : Input → Bool} {l : List Input} (h : ∀ i ∈ l, p i = false) : takeInput p l = none := by
  induction l with
  | nil => rfl
  | cons j l ih =>
    rw [takeInput_skip l (h j List.mem_cons_self), ih fun i hi => h i (List.mem_cons_of_mem _ hi)]
    rfl

/-- Where no answer of the transport can be taken, it keeps every answer it holds, in order (R46, R205). -/
theorem takeInput_rxPending {p : Input → Bool} {l : List Input} {i : Input} {rest : List Input}
    (hp : ∀ a, p (.rx a) = false) (h : takeInput p l = some (i, rest)) : rxPending rest = rxPending l := by
  induction l generalizing i rest with
  | nil => cases h
  | cons j l ih =>
    cases hj : p j with
    | true =>
      rw [takeInput_head l hj] at h; cases h
      cases j with
      | rx a => rw [hp a] at hj; cases hj
      | _ => simp [rxPending]
    | false =>
      rw [takeInput_skip l hj] at h
      cases hl : takeInput p l with
      | none => rw [hl] at h; cases h
      | some q =>
        rw [hl] at h; cases h
        have := ih hl
        cases j <;> simp_all [rxPending]

/-- In a reading state that is not blocked the oldest input comes next, whatever it is (R132). -/
theorem accepts_reading {s : State} (hr : s.state.reading = true) (hb : s.blockedWrite = none) (i : Input) :
    s.accepts i = true := by
  cases i <;> simp [State.accepts, hr, hb]

/-- Everything a step that answers a next state can have done. -/
theorem step_next {s t : State} (h : step s = .next t) :
    (takeInput s.accepts s.inputs = none ∧ t = s) ∨
    (∃ i rest, takeInput s.accepts s.inputs = some (i, rest) ∧
      ((∃ a, i = .rx a ∧ s.state.reading = true ∧ s.blockedWrite = none ∧ ∃ j, decode s.runByte a.coded = .ok j ∧
        exec j { s with inputs := rest } = .next t) ∨
      (∃ a, i = .tx a ∧ s.blockedWrite = none ∧
        t = { s with inputs := rest, txAnswers := s.txAnswers ++ [a] }) ∨
      (∃ a w, i = .tx a ∧ s.blockedWrite = some w ∧
        (resumeWrite w a { s with inputs := rest }).outcome = .next t) ∨
      (∃ w m, i = .host w m ∧ (s.state.busy = true ∨ s.blockedWrite = none) ∧
        exec (decodeHost w) { s with inputs := rest, source := m } = .next t) ∨
      (i = .reset ∧ t = ({ s with inputs := rest } : State).hardReset) ∨
      (∃ b, i = .breach b ∧ s.state.busy = false ∧ t = { s with inputs := rest }) ∨
      (∃ w, i = .crcOp w ∧ s.blockedWrite = none ∧ exec (decodeCrc w) { s with inputs := rest } = .next t) ∨
      (∃ b, i = .txUnit b ∧ s.blockedWrite = none ∧
        ∃ j, decodeTx s.runByte b = .ok j ∧ exec j { s with inputs := rest } = .next t))) := by
  unfold step fetch at h
  cases ht : takeInput s.accepts s.inputs with
  | none => rw [ht] at h; cases h; exact .inl ⟨rfl, rfl⟩
  | some p =>
    obtain ⟨i, rest⟩ := p
    have hacc := (takeInput_mem ht).1
    rw [ht] at h
    refine .inr ⟨i, rest, rfl, ?_⟩
    cases i with
    | rx a =>
      simp only [State.accepts, Bool.and_eq_true, Option.isNone_iff_eq_none] at hacc
      simp only [deliver, fetchCoded] at h
      cases hd : decode s.runByte a.coded with
      | error e => rw [hd] at h; cases h
      | ok j => rw [hd] at h; exact .inl ⟨a, rfl, hacc.1, hacc.2, j, hd, h⟩
    | tx a =>
      simp only [deliver] at h
      cases hb : s.blockedWrite with
      | none => rw [hb] at h; cases h; exact .inr (.inl ⟨a, rfl, rfl, rfl⟩)
      | some w => rw [hb] at h; exact .inr (.inr (.inl ⟨a, w, rfl, rfl, h⟩))
    | host w m =>
      simp only [State.accepts, Bool.or_eq_true, Option.isNone_iff_eq_none] at hacc
      exact .inr (.inr (.inr (.inl ⟨w, m, rfl, hacc, h⟩)))
    | reset => cases h; exact .inr (.inr (.inr (.inr (.inl ⟨rfl, rfl⟩))))
    | breach b =>
      simp only [deliver] at h
      cases hb : s.state.busy with
      | true => simp [State.busy, hb] at h
      | false => simp [State.busy, hb] at h; exact .inr (.inr (.inr (.inr (.inr (.inl ⟨b, rfl, rfl, h.symm⟩)))))
    | crcOp w =>
      simp only [State.accepts, Option.isNone_iff_eq_none] at hacc
      exact .inr (.inr (.inr (.inr (.inr (.inr (.inl ⟨w, rfl, hacc, h⟩))))))
    | txUnit b =>
      simp only [State.accepts, Option.isNone_iff_eq_none] at hacc
      simp only [deliver, fetchCoded, decode] at h
      cases hd : decodeTx s.runByte b with
      | error e => rw [hd] at h; cases h
      | ok j => rw [hd] at h; exact .inr (.inr (.inr (.inr (.inr (.inr (.inr ⟨b, rfl, hacc, j, hd, h⟩))))))

/-- Of the inputs and answers to come the invariant asks only that a source is in canonical form. -/
theorem inv_of_inputs {s : State} (h : Inv s) {inputs : List Input} (answers : List TxAnswer)
    (hw : ∀ i ∈ inputs, i.wf = true) : Inv { s with inputs := inputs, txAnswers := answers } :=
  ⟨h.1, h.2.1, h.2.2.1, h.2.2.2.1, h.2.2.2.2.1, h.2.2.2.2.2.1, h.2.2.2.2.2.2.1, hw⟩

/-! ## What a unit can decode to -/

theorem decodeRx_cases (b : Byte) :
    decodeRx b = .rxHandshake ∨ decodeRx b = .rxAck ∨ decodeRx b = .rxNak ∨ decodeRx b = .rxCan ∨
      decodeRx b = .rxOther b := by
  unfold decodeRx
  split
  · exact .inl rfl
  split
  · exact .inr (.inl rfl)
  split
  · exact .inr (.inr (.inl rfl))
  split
  · exact .inr (.inr (.inr (.inl rfl)))
  · exact .inr (.inr (.inr (.inr rfl)))

theorem decodeHost_cases (w : HostWord) :
    (∃ st run maxRetry size, decodeHost w = .hostStart st run maxRetry size) ∨
      ∃ run maxRetry size, decodeHost w = .hostStartRsv run maxRetry size := by
  unfold decodeHost
  cases SrcStatus.ofCode? (w.extractLsb' 0 2) with
  | none => exact .inr ⟨_, _, _, rfl⟩
  | some st => exact .inl ⟨_, _, _, _, rfl⟩

/-! ## Runs -/

/-- A run of any machine whose first step answers a next state. -/
theorem core_run_next (M : Host.Core) {s t : M.State} (k : Nat) (h : M.step s = .next t) :
    M.run (k + 1) s = M.run k t := by
  rw [Host.Core.run, h]

/-- A run of any machine whose first step faults. -/
theorem core_run_fault (M : Host.Core) {s : M.State} {f : M.Fault} (k : Nat) (h : M.step s = .fault f) :
    M.run (k + 1) s = .fault f := by
  rw [Host.Core.run, h]

/-- A run of any machine whose first step is refused. -/
theorem core_run_refused (M : Host.Core) {s : M.State} {r : M.Refusal} (k : Nat) (h : M.step s = .refused r) :
    M.run (k + 1) s = .refused r := by
  rw [Host.Core.run, h]

theorem run_zero (s : State) : Host.Core.run Sys2Proof.core 0 s = .next s := rfl

/-- A run of `k + 1` steps whose first step answers a next state. -/
theorem run_succ_of_next {s t : State} (k : Nat) (h : step s = .next t) :
    Host.Core.run Sys2Proof.core (k + 1) s = Host.Core.run Sys2Proof.core k t :=
  core_run_next Sys2Proof.core k h

theorem run_succ_of_fault {s : State} {f : Fault} (k : Nat) (h : step s = .fault f) :
    Host.Core.run Sys2Proof.core (k + 1) s = .fault f :=
  core_run_fault Sys2Proof.core k h

theorem run_succ_of_refused {s : State} {r : Refusal} (k : Nat) (h : step s = .refused r) :
    Host.Core.run Sys2Proof.core (k + 1) s = .refused r :=
  core_run_refused Sys2Proof.core k h

/-- In a reading state that is not blocked, a byte of the peer that comes next runs the instruction of its class. -/
theorem step_of_byte {s : State} {b : Byte} {rest : List Input} (hr : s.state.reading = true)
    (hb : s.blockedWrite = none) (hi : s.inputs = .rx (.byte b) :: rest) :
    step s = exec (decodeRx b) { s with inputs := rest } := by
  unfold step fetch
  rw [hi, takeInput_head rest (accepts_reading hr hb _)]
  rfl

/-- R214: the transport's answer, when it comes next, resumes the blocked step. -/
theorem step_of_late_answer {s : State} {w : BlockedWrite} {a : TxAnswer} {rest : List Input}
    (hb : s.blockedWrite = some w) (hi : s.inputs = .tx a :: rest) :
    step s = (resumeWrite w a { s with inputs := rest }).outcome := by
  unfold step fetch
  rw [hi, takeInput_head rest rfl]
  simp only [deliver, hb]

end Sys2Proof.Machine
end

