-- ==== Sys2Proof/Laws/PerInstr.lean ====
section
/-! SUPPORT. Statements about every instruction as syntax, one lemma per constructor: the unit the encoder gives lies in
the instruction's row of spec/opcode_table.json. -/

namespace Sys2Proof.Laws

/-- R12: an encoded unit as a number, bit 0 its least significant bit. -/
def codedNumber : Coded → Nat
  | .rxSymbol b => b.toNat
  | .rxEvent => 0
  | .txUnit first => first.toNat
  | .hostCmd w => w.toNat
  | .crcOp w => w.toNat

/-- A row of spec/opcode_table.json: its format, the bits it fixes and their value. RX_FAIL carries no bits (R143). -/
structure TableRow where
  format : Format
  mask : Nat
  pattern : Nat
  deriving DecidableEq, Repr

/-- The rows, as the table writes them. Of TX_FRAME the table fixes the first byte. -/
def tableRow : Instr → TableRow
  | .rxHandshake => ⟨.rxSymbol, 0xFF, 0x43⟩
  | .rxAck => ⟨.rxSymbol, 0xFF, 0x06⟩
  | .rxNak => ⟨.rxSymbol, 0xFF, 0x15⟩
  | .rxCan => ⟨.rxSymbol, 0xFF, 0x18⟩
  | .rxOther _ => ⟨.rxSymbol, 0x00, 0x00⟩
  | .rxFail => ⟨.rxEvent, 0, 0⟩
  | .txFrame => ⟨.txFrame, 0xFF, 0x01⟩
  | .txEot => ⟨.txSymbol, 0xFF, 0x04⟩
  | .txRun => ⟨.txSymbol, 0xFF, 0x1D⟩
  | .hostStart _ _ _ _ => ⟨.hostCmd, 0x0, 0x0⟩
  | .hostStartRsv _ _ _ => ⟨.hostCmd, 0x3, 0x3⟩
  | .crcHold _ => ⟨.crcOp, 0x003, 0x000⟩
  | .crcClear _ => ⟨.crcOp, 0x003, 0x001⟩
  | .crcUpdate _ => ⟨.crcOp, 0x003, 0x002⟩
  | .crcRsv _ => ⟨.crcOp, 0x003, 0x003⟩

/-- The encoded unit fits its format and has the row's fixed bits. -/
def InRow.Statement (i : Instr) : Prop :=
  codedNumber (encode Config.runByteDefault i) < 2 ^ (tableRow i).format.width ∧
    codedNumber (encode Config.runByteDefault i) &&& (tableRow i).mask = (tableRow i).pattern

theorem and_toNat {w : Nat} {x m : BitVec w} (h : x &&& m = m) : x.toNat &&& m.toNat = m.toNat := by
  rw [← BitVec.toNat_and, h]

theorem encodeHost_reserved (run : Bool) (maxRetry : Byte) (size : Word32) :
    encodeHost 3 run maxRetry size &&& 3#43 = 3#43 := by
  ext k hk
  simp only [encodeHost, BitVec.getElem_and, BitVec.getElem_or, BitVec.getElem_shiftLeft, BitVec.getElem_setWidth]
  match k with
  | 0 => simp
  | 1 => simp
  | k + 2 =>
    have : (3#43)[k + 2] = false := by
      rw [← BitVec.getLsbD_eq_getElem, BitVec.getLsbD_ofNat]
      simp [Nat.testBit_succ]
    simp [this]

theorem InRow.rxHandshake : InRow.Statement .rxHandshake := by unfold InRow.Statement; decide
theorem InRow.rxAck : InRow.Statement .rxAck := by unfold InRow.Statement; decide
theorem InRow.rxNak : InRow.Statement .rxNak := by unfold InRow.Statement; decide
theorem InRow.rxCan : InRow.Statement .rxCan := by unfold InRow.Statement; decide
theorem InRow.rxOther (b : Byte) : InRow.Statement (.rxOther b) := ⟨b.isLt, by simp [tableRow]⟩
theorem InRow.rxFail : InRow.Statement .rxFail := by unfold InRow.Statement; decide
theorem InRow.txFrame : InRow.Statement .txFrame :=
  ⟨Nat.lt_of_lt_of_le (by decide) (Nat.pow_le_pow_right (by decide) (by decide : 8 ≤ 1064)), by decide⟩
theorem InRow.txEot : InRow.Statement .txEot := by unfold InRow.Statement; decide
theorem InRow.txRun : InRow.Statement .txRun := by unfold InRow.Statement; decide
theorem InRow.hostStart (status : SrcStatus) (run : Bool) (maxRetry : Byte) (size : Word32) :
    InRow.Statement (.hostStart status run maxRetry size) :=
  ⟨(encodeHost status.code run maxRetry size).isLt, by simp [tableRow]⟩
theorem InRow.hostStartRsv (run : Bool) (maxRetry : Byte) (size : Word32) :
    InRow.Statement (.hostStartRsv run maxRetry size) :=
  ⟨(encodeHost 3 run maxRetry size).isLt, and_toNat (encodeHost_reserved run maxRetry size)⟩
theorem InRow.crcHold (d : Byte) : InRow.Statement (.crcHold d) :=
  ⟨(encodeCrc d 0).isLt, by revert d; decide +kernel⟩
theorem InRow.crcClear (d : Byte) : InRow.Statement (.crcClear d) :=
  ⟨(encodeCrc d 1).isLt, by revert d; decide +kernel⟩
theorem InRow.crcUpdate (d : Byte) : InRow.Statement (.crcUpdate d) :=
  ⟨(encodeCrc d 2).isLt, by revert d; decide +kernel⟩
theorem InRow.crcRsv (d : Byte) : InRow.Statement (.crcRsv d) :=
  ⟨(encodeCrc d 3).isLt, by revert d; decide +kernel⟩

end Sys2Proof.Laws
end

