-- ==== Sys2Proof/Tests/Slice0.lean ====
section
/-! SUPPORT. The model's own tests. Expected values are those of spec/95_test_vectors.md (V-…) and of 30_encoding.md,
none computed by the model; after them, for every obligation with hypotheses, a concrete state and operands that meet
them. -/

set_option Elab.async false

namespace Sys2Proof.Tests
open Sys2Proof.Machine

/-! ## States the tests start from -/

def nextState? : Host.Outcome State Fault Refusal → Option State
  | .next s => some s
  | .fault _ => none
  | .refused _ => none

def fault? : Host.Outcome State Fault Refusal → Option Fault
  | .next _ => none
  | .fault f => some f
  | .refused _ => none

def refusal? : Host.Outcome State Fault Refusal → Option Refusal
  | .next _ => none
  | .fault _ => none
  | .refused r => some r

theorem next_of {o : Host.Outcome State Fault Refusal} {s : State} (h : nextState? o = some s) : o = .next s := by
  cases o <;> simp_all [nextState?]

/-- A loaded PBUF, byte by byte. -/
def loadedWith (bs : List Byte) : Memory :=
  bs.zipIdx.map fun c => (c.2, c.1)

/-- The source "HELLO" of P3. -/
def helloSource : Memory :=
  [(0, 0x48), (1, 0x45), (2, 0x4C), (3, 0x4C), (4, 0x4F)]

/-- The payload of its one block (V-FR-8). -/
def helloPayload : List Byte :=
  [0x48, 0x45, 0x4C, 0x4C, 0x4F] ++ List.replicate 123 0x1A

/-- V-FR-8: its frame. -/
def helloFrame : List Byte :=
  [0x01, 0x01, 0xFE, 0x48, 0x45, 0x4C, 0x4C, 0x4F] ++ List.replicate 123 0x1A ++ [0x1E, 0x70]

/-- The state after START with a file of `size` bytes, as R131 writes it. -/
def awaiting (size total : Word32) (source : Memory) : State :=
  { State.reset with
    state := .awaitingStart
    fileSize := size
    totalBlocks := total
    maxRetryL := 2
    blockNumber := 1
    source := source }

/-- P3 after its handshake: block 1 of "HELLO" has been sent. -/
def sendingHello : State :=
  { awaiting 5 1 helloSource with
    state := .sendingBlock
    chunkLen := 5
    blockIndex := 1
    pbuf := loadedWith helloPayload
    blockCrc := 0x1E70
    crcR := 0x1E70 }

/-- R214: the same, with the transport's answer to the frame still to come. -/
def blockedHello : State :=
  { sendingHello with blockedWrite := some { bytes := helloFrame, rest := [] } }

/-- V-TR-12: block 255 of a file of zeros has been sent and more than one block is left (P9). -/
def sendingBlock255 : State :=
  { awaiting 32769 257 [] with
    state := .sendingBlock
    blockNumber := 0xFF
    srcPos := 32512
    chunkLen := 128
    blockIndex := 255
    pbuf := loadedWith (List.replicate 128 0x00) }

/-- What has been transmitted, each write cut to its first bytes. -/
def wireHeads (n : Nat) (s : State) : List (List Byte) :=
  s.outputs.filterMap fun
    | .progress _ _ => none
    | .wire bs => some (bs.take n)

/-! ## WellFormed refuses ill-formed terms -/

theorem test_wf_refuses_named_bytes_as_other :
    (Instr.rxOther 0x43).wf = false ∧ (Instr.rxOther 0x06).wf = false ∧ (Instr.rxOther 0x15).wf = false ∧
      (Instr.rxOther 0x18).wf = false ∧ (Instr.rxOther 0xC3).wf = true := by decide

theorem test_wf_refuses_payload_length :
    (TxUnit.frame 1 (List.replicate 127 0) 0).wf = false ∧ (TxUnit.frame 1 (List.replicate 129 0) 0).wf = false ∧
      (TxUnit.frame 1 (List.replicate 128 0) 0).wf = true := by decide +kernel

theorem test_run_byte_may_not_open_a_frame_or_end_one :
    runByteDistinct 0x01 = false ∧ runByteDistinct 0x04 = false ∧ runByteDistinct 0x1D = true := by decide

theorem test_memory_wf_refuses :
    Memory.wf .pbuf [(1, 0), (0, 0)] = false ∧ Memory.wf .pbuf [(0, 0), (0, 0)] = false ∧
      Memory.wf .pbuf [(128, 0)] = false ∧ Memory.wf .src [(3, 0x00)] = false ∧
      Memory.wf .src [(2 ^ 32, 1)] = false ∧ (Input.host 0 [(3, 0x00)]).wf = false := by decide

theorem reset_memories_wf : State.reset.pbuf.wf .pbuf = true ∧ State.reset.source.wf .src = true := ⟨rfl, rfl⟩

/-! ## Decoding, words written out from 30_encoding.md -/

/-- R81, V-DEC-1 to V-DEC-14. -/
theorem test_decode_received_bytes :
    decodeRx 0b01000011 = .rxHandshake ∧ decodeRx 0b00000110 = .rxAck ∧ decodeRx 0b00010101 = .rxNak ∧
      decodeRx 0b00011000 = .rxCan ∧ decodeRx 0x63 = .rxOther 0x63 ∧ decodeRx 0xC3 = .rxOther 0xC3 ∧
      decodeRx 0x86 = .rxOther 0x86 ∧ decodeRx 0x98 = .rxOther 0x98 ∧ decodeRx 0x01 = .rxOther 0x01 ∧
      decodeRx 0x04 = .rxOther 0x04 ∧ decodeRx 0x1A = .rxOther 0x1A ∧ decodeRx 0x1D = .rxOther 0x1D ∧
      decodeRx 0x00 = .rxOther 0x00 ∧ decodeRx 0xFF = .rxOther 0xFF := by decide

/-- R28, R143: the answer `rxfail` carries no bits. -/
theorem test_decode_rx_fail : decodeNat 0x1D .rxEvent 0 = .ok .rxFail := by rfl

/-- R84, R91, R93: 01, then block number 02 and its complement FD; EOT; RUN; no unit begins with 0x05. -/
theorem test_decode_transmitted_units :
    codedOfNat .txFrame 0xFD0201 = .ok (.txUnit 0x01) ∧ decodeTx 0x1D 0b00000001 = .ok .txFrame ∧
      decodeTx 0x1D 0b00000100 = .ok .txEot ∧ decodeTx 0x1D 0b00011101 = .ok .txRun ∧
      decodeTx 0x1D 0x05 = .error (.noSuchTxUnit 0x05) ∧ codedOfNat .txFrame 0x02 = .error (.notAFrame 0x02) := by
  refine ⟨?_, rfl, rfl, rfl, rfl, ?_⟩
  all_goals rw [codedOfNat, if_pos (Nat.lt_of_lt_of_le (by decide : _ < 2 ^ 32) (Nat.pow_le_pow_right (by decide) (by decide)))]; rfl

/-- R90: `file_size` 300, `max_retry` 10, `start_after_upload` 1, then each value of `src_status`. -/
theorem test_decode_host_words :
    decodeHost 0b00000000000000000000000100101100_00001010_1_00 = .hostStart .ok true 10 300 ∧
      decodeHost 0b00000000000000000000000100101100_00001010_1_01 = .hostStart .notFound true 10 300 ∧
      decodeHost 0b10000000000000000000000000000001_10000001_0_10 = .hostStart .openFailed false 129 0x80000001 ∧
      decodeHost 0b11111111111111111111111111111111_11111111_1_11 = .hostStartRsv true 255 0xFFFFFFFF := by decide

/-- R89: data 0x31 in each of the four operations. -/
theorem test_decode_crc_words :
    decodeCrc 0b00110001_00 = .crcHold 0x31 ∧ decodeCrc 0b00110001_01 = .crcClear 0x31 ∧
      decodeCrc 0b00110001_10 = .crcUpdate 0x31 ∧ decodeCrc 0b00110001_11 = .crcRsv 0x31 := by decide

/-- R80: a number wider than its format is no unit. -/
theorem test_decode_too_wide :
    decodeNat 0x1D .rxSymbol 0x100 = .error (.tooWide .rxSymbol) ∧
      decodeNat 0x1D .crcOp 0x400 = .error (.tooWide .crcOp) := by decide

/-- R84, V-FR-8: the receiver of a TX stream finds the frame, then EOT and RUN. -/
theorem test_read_stream :
    TxUnit.readAll? 0x1D 3 (helloFrame ++ [0x04, 0x1D]) =
      some [.frame 1 helloPayload 0x1E70, .eot, .run] := by decide +kernel

/-! ## One step of each instruction -/

/-- V-TR-1 in the form of P3: the progress event, then frame 1. -/
theorem test_handshake_sends_block_1 :
    (nextState? (exec .rxHandshake (awaiting 5 1 helloSource))).map
        (fun t => (t.state, t.blockNumber, t.blockIndex, t.chunkLen, t.outputs)) =
      some (.sendingBlock, 1, 1, 5, [.progress 1 1, .wire helloFrame]) := by decide +kernel

/-- V-TR-2: an empty source with run. -/
theorem test_handshake_empty_source :
    (nextState? (exec .rxHandshake { awaiting 0 0 [] with runFlag := true })).map
        (fun t => (t.state, t.result, t.eofReached, t.outputs)) =
      some (.done, .success, true, [.wire [0x04], .wire [0x1D]]) := by decide

/-- V-TR-11 in the form of P12: the last block is acknowledged. -/
theorem test_ack_of_last_block :
    (nextState? (exec .rxAck sendingHello)).map
        (fun t => (t.state, t.blockNumber, t.srcPos, t.eofReached, t.outputs)) =
      some (.done, 2, 5, true, [.wire [0x04]]) := by decide +kernel

/-- V-TR-12, P9: block number 255 is followed by 0, with header 01 00 FF and CRC 00 00. -/
theorem test_ack_wraps_block_number :
    (nextState? (exec .rxAck sendingBlock255)).map
        (fun t => (t.blockNumber, t.blockIndex, t.srcPos, t.blockCrc, wireHeads 3 t)) =
      some (0x00, 256, 32640, 0x0000, [[0x01, 0x00, 0xFF]]) := by decide +kernel

/-- V-TR-14, P3: the same frame again. -/
theorem test_nak_retransmits :
    (nextState? (exec .rxNak sendingHello)).map (fun t => (t.state, t.currentTry, t.blockNumber, t.outputs)) =
      some (.sendingBlock, 1, 1, [.progress 1 1, .wire helloFrame]) := by decide +kernel

/-- V-TR-18: the last retry of the largest budget is spent. -/
theorem test_nak_budget_spent :
    (nextState? (exec .rxNak { sendingHello with currentTry := 255, maxRetryL := 255 })).map
        (fun t => (t.state, t.result, t.currentTry, t.outputs)) =
      some (.failed, .retryLimitExceeded, 255, []) := by decide +kernel

/-- V-TR-6, V-TR-20. -/
theorem test_can_cancels :
    (nextState? (exec .rxCan (awaiting 5 1 helloSource))).map (fun t => (t.state, t.result, t.outputs)) =
        some (.cancelled, .cancelledByPeer, []) ∧
      (nextState? (exec .rxCan sendingHello)).map (fun t => (t.state, t.result, t.outputs)) =
        some (.cancelled, .cancelledByPeer, []) := by decide +kernel

/-- V-TR-21: EOT from the peer is ignored. -/
theorem test_other_ignored :
    nextState? (exec (.rxOther 0x04) sendingHello) = some sendingHello := by decide +kernel

/-- V-TR-8, V-TR-22. -/
theorem test_read_failure :
    (nextState? (exec .rxFail (awaiting 5 1 helloSource))).map (fun t => (t.state, t.result)) =
        some (.failed, .transportFailure) ∧
      (nextState? (exec .rxFail sendingHello)).map (fun t => (t.state, t.result, t.currentTry)) =
        some (.failed, .transportFailure, 0) := by decide +kernel

/-- V-TR-25: in DONE the peer's byte stays in the transport. -/
theorem test_done_reads_nothing :
    nextState? (step { sendingHello with state := .done, inputs := [.rx (.byte 0x06)] }) =
      some { sendingHello with state := .done, inputs := [.rx (.byte 0x06)] } := by decide +kernel

/-- V-FR-8. -/
theorem test_frame_bytes : (nextState? (exec .txFrame sendingHello)).map (·.outputs) =
    some [.progress 1 1, .wire helloFrame] := by decide +kernel

/-- P10 in small: TXFAIL 50 delivers the first 50 bytes and fails the session. -/
theorem test_frame_write_fails :
    (nextState? (exec .txFrame { sendingHello with txAnswers := [.txfail 50] })).map
        (fun t => (t.state, t.result, t.outputs)) =
      some (.failed, .transportFailure, [.progress 1 1, .wire (helloFrame.take 50)]) := by decide +kernel

/-- R214, R205: the frame of a NAK row waits for its answer, a byte that comes meanwhile stays, and the late answer ends
the row as in P3. -/
theorem test_blocked_frame_is_resumed :
    (nextState? (exec .rxNak { sendingHello with txAnswers := [.pending] })).map
        (fun t => (t.state, t.currentTry, t.outputs, t.blockedWrite)) =
        some (.sendingBlock, 1, [.progress 1 1], some { bytes := helloFrame, rest := [] }) ∧
      (nextState? (step { sendingHello with
        blockedWrite := some { bytes := helloFrame, rest := [] }, inputs := [.rx (.byte 0x06), .tx .ok] })).map
        (fun t => (t.state, t.outputs, t.blockedWrite, t.inputs)) =
        some (.sendingBlock, [.wire helloFrame], none, [.rx (.byte 0x06)]) := by decide +kernel

/-- R142, R178, R214: a termination blocked in EOT goes on with RUN and DONE. -/
theorem test_blocked_termination_is_resumed :
    let s : State := { awaiting 0 0 [] with runFlag := true, txAnswers := [.pending] }
    ((nextState? (exec .rxHandshake s)).bind
        fun t => nextState? (step { t with inputs := [.tx .ok] })).map
        (fun t => (t.state, t.result, t.outputs, t.blockedWrite)) =
      some (.done, .success, [.wire [0x04], .wire [0x1D]], none) := by decide

/-- V-FR-11. -/
theorem test_eot : (nextState? (exec .txEot sendingHello)).map (·.outputs) = some [.wire [0x04]] := by decide +kernel

/-- V-FR-11, V-FR-12. -/
theorem test_run :
    (nextState? (exec .txRun sendingHello)).map (·.outputs) = some [] ∧
      (nextState? (exec .txRun { sendingHello with runFlag := true })).map (·.outputs) =
        some [.wire [0x1D]] := by decide +kernel

/-- V-ST-1. -/
theorem test_start_ok :
    (nextState? (exec (.hostStart .ok false 10 300) State.reset)).map
        (fun t => (t.state, t.result, t.totalBlocks, t.blockNumber, t.maxRetryL, t.blockIndex)) =
      some (.awaitingStart, .none, 3, 1, 10, 0) := by decide

/-- V-ST-3, V-ST-5. -/
theorem test_start_open_failed_and_refused :
    (nextState? (exec (.hostStart .openFailed false 10 300) { State.reset with state := .done })).map
        (fun t => (t.state, t.result, t.outputs)) = some (.failed, .sourceOpenFailed, []) ∧
      refusal? (exec (.hostStart .ok false 10 300) sendingHello) = some .startWhileBusy := by decide +kernel

/-- V-ST-6. -/
theorem test_start_reserved : refusal? (exec (.hostStartRsv false 10 300) State.reset) = some .reservedSrcStatus := by
  decide

/-- V-FR-7. -/
theorem test_block_counts :
    [0, 1, 128, 129, 300, 32769, 4294967295].map blockCount = [0, 1, 1, 2, 3, 257, 33554432] := by decide

/-- V-HOLD-1, V-CLR-1, V-RSV-1. -/
theorem test_crc_hold_clear_rsv :
    (nextState? (exec (.crcHold 0xFF) { State.reset with crcR := 0x1234 })).map (·.crcR) = some 0x1234 ∧
      (nextState? (exec (.crcClear 0xFF) { State.reset with crcR := 0xBEEF })).map (·.crcR) = some 0x0000 ∧
      refusal? (exec (.crcRsv 0x00) State.reset) = some .reservedCrcOp := by decide

/-- V-UPD-5, V-UPD-7, V-UPD-8, V-UPD-9. -/
theorem test_crc_updates :
    (nextState? (exec (.crcUpdate 0x00) { State.reset with crcR := 0xFFFF })).map (·.crcR) = some 0xE1F0 ∧
      (nextState? (exec (.crcUpdate 0x00) { State.reset with crcR := 0x00FF })).map (·.crcR) = some 0xFF00 ∧
      (nextState? (exec (.crcUpdate 0x12) { State.reset with crcR := 0xABCD })).map (·.crcR) = some 0xFBF2 ∧
      (nextState? (exec (.crcUpdate 0x43) { State.reset with crcR := 0x1234 })).map (·.crcR) = some 0x7ED4 := by
  decide

/-- V-CRC-9, V-CRC-12, V-CRC-19. -/
theorem test_crc_sequences :
    computeCRC16 helloPayload = 0x1E70 ∧
      computeCRC16 [0x31, 0x32, 0x33, 0x34, 0x35, 0x36, 0x37, 0x38, 0x39] = 0x31C3 ∧
      computeCRC16 ((List.range 128).map (BitVec.ofNat 8)) = 0xE80A := by decide +kernel

/-! ## Witnesses: what the obligations assume can be met -/

/-- ResetEndsSession, each clause: reset between two steps, in the middle of a frame, and in a blocked write. -/
theorem witness_ResetEndsSession :
    ({ sendingHello with inputs := [.reset, .rx (.byte 0x06)] } : State).inputs = .reset :: [.rx (.byte 0x06)] ∧
      payload { sendingHello with txAnswers := [.cutByReset 3] } = some helloPayload ∧
      ({ sendingHello with txAnswers := [.cutByReset 3] } : State).nextAnswer = .cutByReset 3 ∧
      blockedHello.blockedWrite = some { bytes := helloFrame, rest := [] } ∧
      ({ blockedHello with inputs := [.tx (.cutByReset 133)] } : State).inputs = .tx (.cutByReset 133) :: [] := by
  decide +kernel

/-- CrcDerivedProperties: two lists of one length, none and two bytes. -/
theorem witness_CrcDerivedProperties :
    ([] : List Byte).length = ([] : List Byte).length ∧ ([0x12, 0x34] : List Byte).length = [0xFF, 0xFF].length := by
  decide

/-- ReceivedByteClasses, the last clause, next to each of the four bytes. -/
theorem witness_ReceivedByteClasses :
    ∀ b ∈ ([0x42, 0x44, 0x05, 0x07, 0x14, 0x16, 0x17, 0x19, 0x00, 0xFF] : List Byte),
      b ≠ 0x43 ∧ b ≠ 0x06 ∧ b ≠ 0x15 ∧ b ≠ 0x18 := by decide

/-- CrcWordFields, a word for each clause, the data bits all set and all clear. -/
theorem witness_CrcWordFields :
    ((0x3FC : CrcWord).getLsbD 1 = false ∧ (0x3FC : CrcWord).getLsbD 0 = false) ∧
      ((0x001 : CrcWord).getLsbD 1 = false ∧ (0x001 : CrcWord).getLsbD 0 = true) ∧
      ((0x3FE : CrcWord).getLsbD 1 = true ∧ (0x3FE : CrcWord).getLsbD 0 = false) ∧
      ((0x003 : CrcWord).getLsbD 1 = true ∧ (0x003 : CrcWord).getLsbD 0 = true) := by decide

/-- HostWordFields, a word for each clause. -/
theorem witness_HostWordFields :
    (0x7FFFFFFFFFC : HostWord).extractLsb' 0 2 = 0 ∧ (1 : HostWord).extractLsb' 0 2 = 1 ∧
      (0x7FFFFFFFFFE : HostWord).extractLsb' 0 2 = 2 ∧ (3 : HostWord).extractLsb' 0 2 = 3 := by decide

/-- DecodeOfEncode and EncodeOfDecode. -/
theorem witness_DecodeOfEncode :
    runByteDistinct Config.runByteDefault = true ∧ (Instr.rxOther 0x42).wf = true ∧ Instr.txRun.wf = true ∧
      (Instr.hostStart .openFailed true 255 0xFFFFFFFF).wf = true := by decide

theorem witness_EncodeOfDecode :
    decode 0x1D (.rxSymbol 0x44) = .ok (.rxOther 0x44) ∧ decode 0x1D (.txUnit 0x1D) = .ok .txRun ∧
      decode 0x1D (.crcOp 0x3FF) = .ok (.crcRsv 0xFF) := ⟨rfl, rfl, rfl⟩

/-- TxStreamReadsBack: a frame whose payload is full of markers, EOT, RUN. -/
theorem witness_TxStreamReadsBack :
    runByteDistinct 0x1D = true ∧
      ∀ u ∈ [TxUnit.frame 0xFF (List.replicate 128 0x01) 0x0104, .eot, .run], u.wf = true := by decide +kernel

/-- FrameLayout, BlockAttempt (both clauses), NakCompletes. -/
theorem witness_BlockAttempt :
    payload sendingHello = some helloPayload ∧ sendingHello.nextAnswer = .ok ∧
      payload { sendingHello with txAnswers := [.txfail 132] } = some helloPayload ∧
      ({ sendingHello with txAnswers := [.txfail 132] } : State).nextAnswer = .txfail 132 := by decide +kernel

/-- PbufReturnsWhatIsWritten: the first and the last byte. -/
theorem witness_PbufReturnsWhatIsWritten : (0 : Nat) < 128 ∧ (127 : Nat) < 128 ∧ State.reset.pbuf.wf .pbuf = true := by
  decide

/-- UnreadSymbolsChangeNothing: each state in which nothing is read. -/
theorem witness_UnreadSymbolsChangeNothing :
    ∀ e ∈ [EngineState.idle, .awaitingTerminationAck, .done, .failed, .cancelled],
      ({ State.reset with state := e } : State).state.reading = false := by decide

/-- StartOpensSession: each of the four states that accept START. -/
theorem witness_StartOpensSession :
    ∀ e ∈ [EngineState.idle, .done, .failed, .cancelled],
      ({ State.reset with state := e } : State).state.idleLike = true := by decide

/-- StartRefusals: both sides of its equivalence. Its second clause has no hypothesis. -/
theorem witness_StartRefusals :
    sendingHello.state.busy = true ∧ refusal? (exec (.hostStart .ok true 1 1) sendingHello) = some .startWhileBusy ∧
      State.reset.state.busy = false := by decide +kernel

/-- HandshakeRow and HandshakeCompletes: the empty file and the file of one byte. -/
theorem witness_HandshakeCompletes :
    (awaiting 0 0 []).state = .awaitingStart ∧ (awaiting 0 0 []).pbuf.wf .pbuf = true ∧
      (awaiting 0 0 []).writesOk 2 = true ∧ (awaiting 0 0 []).fileSize = 0 ∧
      (awaiting 1 1 helloSource).state = .awaitingStart ∧ (awaiting 1 1 helloSource).pbuf.wf .pbuf = true ∧
      (awaiting 1 1 helloSource).writesOk 2 = true ∧ (awaiting 1 1 helloSource).fileSize ≠ 0 := by decide

/-- IgnoredSymbolsChangeNothing, CanCancels, ReadFailureFails. -/
theorem witness_reading_states :
    sendingHello.state = .sendingBlock ∧ sendingHello.state.reading = true ∧
      (awaiting 5 1 helloSource).state = .awaitingStart ∧ (awaiting 5 1 helloSource).state.reading = true := by
  decide +kernel

/-- AckRow and AckCompletes: the source exhausted to the byte, and one byte left (V-FR-6). -/
theorem witness_AckCompletes :
    sendingHello.state = .sendingBlock ∧ sendingHello.pbuf.wf .pbuf = true ∧ sendingHello.writesOk 2 = true ∧
      sendingHello.fileSize.toNat ≤ (sendingHello.srcPos + sendingHello.chunkLen.setWidth 32).toNat ∧
      (sendingHello.srcPos + sendingHello.chunkLen.setWidth 32).toNat <
        ({ sendingHello with fileSize := 6 } : State).fileSize.toNat := by decide +kernel

/-- NakRow and NakCompletes: the budget just spent, the last retry, and no budget at all (V-TR-16). -/
theorem witness_NakCompletes :
    sendingHello.state = .sendingBlock ∧ payload sendingHello = some helloPayload ∧ sendingHello.writesOk 1 = true ∧
      ({ sendingHello with currentTry := 2 } : State).maxRetryL.toNat ≤
        ({ sendingHello with currentTry := 2 } : State).currentTry.toNat ∧
      ({ sendingHello with currentTry := 1 } : State).currentTry.toNat <
        ({ sendingHello with currentTry := 1 } : State).maxRetryL.toNat ∧
      ({ sendingHello with maxRetryL := 0 } : State).maxRetryL.toNat ≤
        ({ sendingHello with maxRetryL := 0 } : State).currentTry.toNat := by decide +kernel

/-- TransitionTable: every row of either state has a next state. -/
theorem witness_TransitionTable :
    (∀ a ∈ sendingHello.txAnswers, a.isAnswer = true) ∧ sendingHello.state = .sendingBlock ∧
      (awaiting 5 1 helloSource).state = .awaitingStart ∧
      ∀ s ∈ [sendingHello, awaiting 5 1 helloSource],
        ∀ i ∈ [Instr.rxHandshake, .rxAck, .rxNak, .rxCan, .rxOther 0x42, .rxFail],
          (nextState? (exec i s)).isSome = true := by decide +kernel

/-- IdleChangesNothing: a session is over and the peer still sends; no START and no reset comes. -/
theorem witness_IdleChangesNothing :
    ∃ s : State, s.state.idleLike = true ∧ s.blockedWrite = none ∧ (∀ i ∈ s.inputs, i.external = true) ∧ s.inputs ≠ [] ∧ step s = .next s ∧
      (∀ w m rest, takeInput s.accepts s.inputs ≠ some (.host w m, rest)) ∧
      ∀ rest, takeInput s.accepts s.inputs ≠ some (.reset, rest) :=
  ⟨{ State.reset with inputs := [.rx (.byte 0x06)] }, rfl, rfl, by decide, by decide, rfl,
    fun _ _ _ h => (by cases h), fun _ h => (by cases h)⟩

/-- LoadBlockFillsPayload: the last byte of a file, with one byte of chunk and 127 of filler, and a full chunk. -/
theorem witness_LoadBlockFillsPayload :
    ({ awaiting 129 2 [] with srcPos := 128 } : State).srcPos.toNat < 129 ∧
      ({ awaiting 129 2 [] with srcPos := 128 } : State).pbuf.wf .pbuf = true ∧
      (chunkLength 129 128).toNat = 1 ∧ (chunkLength 129 0).toNat = 128 := by decide

/-- UnwrittenPayloadFaults: the first and the last byte of an unloaded PBUF. -/
theorem witness_UnwrittenPayloadFaults :
    pbufRead State.reset 0 = none ∧ pbufRead State.reset 127 = none ∧
      fault? (exec .txFrame State.reset) = some .pbufUnwritten := by decide +kernel

/-- TerminationUnits and TerminationOutcomes, each clause. -/
theorem witness_TerminationOutcomes :
    sendingHello.writesOk 2 = true ∧ sendingHello.nextAnswer = .ok ∧ sendingHello.runFlag = false ∧
      ({ sendingHello with txAnswers := [.txfail 0] } : State).nextAnswer = .txfail 0 ∧
      ({ sendingHello with runFlag := true, txAnswers := [.txfail 0] } : State).runFlag = true ∧
      ({ sendingHello with runFlag := true, txAnswers := [.ok, .txfail 0] } : State).nextAnswer = .ok ∧
      ({ sendingHello with runFlag := true, txAnswers := [.ok, .txfail 0] } : State).txAnswers.tail.headD .ok =
        .txfail 0 := by decide +kernel

/-- WriteDelivery: a unit of one byte, and the shortest and longest proper prefix of a frame. -/
theorem witness_WriteDelivery :
    ([0x04] : List Byte) ≠ [] ∧ ([] : List Byte) <+: [0x04] ∧ ([] : List Byte).length < ([0x04] : List Byte).length ∧
      helloFrame.take 132 <+: helloFrame ∧ (helloFrame.take 132).length < helloFrame.length ∧
      State.reset.nextAnswer = .ok ∧ ({ State.reset with txAnswers := [.txfail 1] } : State).nextAnswer = .txfail 1 := by
  refine ⟨by decide, List.nil_prefix, by decide, List.take_prefix _ _, by decide +kernel, rfl, rfl⟩

/-- FailureIsPrecise: V-TR-23 with one byte left of the file. -/
theorem witness_FailureIsPrecise :
    let s : State := { sendingHello with fileSize := 6, totalBlocks := 1, txAnswers := [.txfail 0] }
    s.state = .sendingBlock ∧ s.pbuf.wf .pbuf = true ∧ s.nextAnswer = .txfail 0 ∧
      (s.srcPos + s.chunkLen.setWidth 32).toNat < s.fileSize.toNat := by decide +kernel

/-- UnansweredWriteWaits, each clause: a frame, a NAK with a retry left, EOT, RUN, and either write of a termination. -/
theorem witness_UnansweredWriteWaits :
    let s : State := { sendingHello with runFlag := true, txAnswers := [.pending] }
    s.nextAnswer = .pending ∧ payload s = some helloPayload ∧ s.state = .sendingBlock ∧
      s.currentTry.toNat < s.maxRetryL.toNat ∧ s.runFlag = true ∧
      ({ s with txAnswers := [.ok, .pending] } : State).nextAnswer = .ok ∧
      ({ s with txAnswers := [.ok, .pending] } : State).txAnswers.tail.headD .ok = .pending := by decide +kernel

/-- LateAnswerSameOutcome: a NAK whose frame has no answer yet, and a handshake whose RUN has none. -/
theorem witness_LateAnswerSameOutcome :
    (sendingHello.blockedWrite = none ∧
      ∃ t, exec .rxNak { sendingHello with txAnswers := [] ++ .pending :: [] } = .next t ∧ t.blockedWrite ≠ none) ∧
    let e : State := { awaiting 0 0 [] with runFlag := true }
    e.blockedWrite = none ∧
      ∃ t, exec .rxHandshake { e with txAnswers := [.ok] ++ .pending :: [] } = .next t ∧ t.blockedWrite ≠ none := by
  have hn : (nextState? (exec .rxNak { sendingHello with txAnswers := [.pending] })).map (·.blockedWrite) =
      some (some { bytes := helloFrame, rest := [] }) := by decide +kernel
  obtain ⟨t, ht, hb⟩ := Option.map_eq_some_iff.mp hn
  exact ⟨⟨rfl, t, next_of ht, by simp [hb]⟩, rfl, _, rfl, fun h => (by cases h)⟩

/-- StepRunsDecodedInput: an answer, a START behind an unread byte, a CRGEN operation, a transmitted unit, and the answer
to a blocked write behind an unread byte. -/
theorem witness_StepRunsDecodedInput :
    (sendingHello.state.reading = true ∧ sendingHello.blockedWrite = none ∧
        decode 0x1D (RxAnswer.byte 0x06).coded = .ok .rxAck) ∧
      (takeInput State.reset.accepts [.rx (.byte 0x06), .host 4 []] = some (.host 4 [], [.rx (.byte 0x06)]) ∧
        decode 0x1D (.hostCmd 4) = .ok (.hostStart .ok true 0 0)) ∧
      (takeInput State.reset.accepts [.crcOp 1] = some (.crcOp 1, []) ∧
        decode 0x1D (.crcOp 1) = .ok (.crcClear 0)) ∧
      (takeInput sendingHello.accepts [.txUnit 0x01] = some (.txUnit 0x01, []) ∧
        decode 0x1D (.txUnit 0x01) = .ok .txFrame) ∧
      (blockedHello.blockedWrite = some { bytes := helloFrame, rest := [] } ∧
        takeInput blockedHello.accepts [.rx (.byte 0x06), .tx .ok] = some (.tx .ok, [.rx (.byte 0x06)])) :=
  ⟨⟨rfl, rfl, rfl⟩, ⟨rfl, rfl⟩, ⟨rfl, rfl⟩, ⟨rfl, rfl⟩, ⟨rfl, rfl⟩⟩

/-- WaitChangesNothing: nothing to read; in IDLE and in a blocked write, only answers to reads; and a blocked write that a
START meets in an idle state. -/
theorem witness_WaitChangesNothing :
    (sendingHello.state.reading = true ∧ sendingHello.inputs = []) ∧
      (State.reset.state.reading = false ∧ blockedHello.blockedWrite ≠ none ∧
        ∀ i ∈ ({ State.reset with inputs := [.rx .rxfail] } : State).inputs, ∃ a, i = .rx a) ∧
      ∃ s : State, s.blockedWrite ≠ none ∧ s.inputs ≠ [] ∧ step s = .next s ∧
        (∀ a rest, takeInput s.accepts s.inputs ≠ some (.tx a, rest)) ∧
        ∀ rest, takeInput s.accepts s.inputs ≠ some (.reset, rest) :=
  ⟨⟨rfl, rfl⟩, ⟨rfl, fun h => (by cases h), fun i hi => ⟨.rxfail, by simpa using hi⟩⟩,
    { State.reset with blockedWrite := some { bytes := [0x04], rest := [] }, inputs := [.host 0 []] },
    fun h => (by cases h), by decide, rfl, fun _ _ h => (by cases h), fun _ h => (by cases h)⟩

/-- MeaninglessEventsRefused: a busy state, an unblocked one, and the words of its clauses. -/
theorem witness_MeaninglessEventsRefused :
    ({ sendingHello with inputs := [.breach .sourceChanged] } : State).state.busy = true ∧
      State.reset.blockedWrite = none ∧
      (2 : HostWord).extractLsb' 0 2 ≠ 3 ∧ (3 : HostWord).extractLsb' 0 2 = 3 ∧
      (3 : CrcWord).extractLsb' 0 2 = 3 := by decide +kernel

/-- The state in which P3's block is being sent meets the invariant, also while its frame is blocked. -/
theorem sendingHello_inv : Inv sendingHello ∧ Inv blockedHello := by
  have hs : SendingFacts sendingHello := fun _ => by
    have hp : blockPayload sendingHello.source sendingHello.fileSize.toNat sendingHello.srcPos.toNat = helloPayload := by
      rw [blockPayload]; decide +kernel
    rw [hp]
    decide +kernel
  refine ⟨⟨by decide +kernel, by decide +kernel, by decide +kernel, hs,
      ⟨by decide +kernel, fun _ h => (by cases h)⟩, by decide +kernel⟩,
    ⟨by decide +kernel, by decide +kernel, by decide +kernel, hs, ⟨fun h => (by cases h), ?_⟩, by decide +kernel⟩⟩
  rintro w ⟨rfl⟩
  exact .inl ⟨by decide +kernel, rfl, .inl (by decide +kernel)⟩

/-- The result one step after the peer's byte `b`, with the transport's next answers. -/
def resultAfter (b tries : Byte) (answers : List TxAnswer) : Option SessionResult :=
  (nextState? (step { sendingHello with
    currentTry := tries, inputs := [peerSends b], txAnswers := answers })).map (·.result)

/-- OutcomesHaveTheirCauses: one step to each of the four outcomes. -/
theorem witness_OutcomesHaveTheirCauses :
    sendingHello.state.reading = true ∧ sendingHello.result = .none ∧ sendingHello.blockedWrite = none ∧
      resultAfter 0x06 0 [] = some .success ∧ resultAfter 0x06 0 [.txfail 0] = some .transportFailure ∧
      resultAfter 0x15 2 [] = some .retryLimitExceeded ∧ resultAfter 0x18 0 [] = some .cancelledByPeer := by
  decide +kernel

/-- StepKeepsInv, OneAttemptPerStep, TerminationAckNeverHeld, SessionConstants, OutputsOnlyGrow, RunningCrcMovesByLoadOnly,
FramesCarryComplement: a step of a busy engine with an answer to read. -/
theorem witness_StepKeepsInv :
    let s : State := { sendingHello with inputs := [.rx (.byte 0x15)] }
    Inv s ∧ (∃ t, step s = .next t ∧ ∃ f, Output.wire f ∈ t.outputs.drop s.outputs.length ∧ f.length = 133) ∧
      s.blockedWrite = none ∧ TerminationPending s ∧ s.state.busy = true ∧
      (∀ a ∈ s.txAnswers, a.isAnswer = true) ∧ NoCut s ∧
      (∀ i ∈ s.inputs, i.external = true) ∧ ∀ rest, takeInput s.accepts s.inputs ≠ some (.reset, rest) := by
  refine ⟨inv_of_inputs sendingHello_inv.1 _ (by decide), ?_, rfl, by decide +kernel, by decide +kernel, by decide +kernel,
    ⟨by decide +kernel, fun a h => (by simp at h)⟩, by decide, fun _ h => (by cases h)⟩
  have hn : (nextState? (step { sendingHello with inputs := [.rx (.byte 0x15)] })).map (·.outputs) =
      some [.progress 1 1, .wire helloFrame] := by decide +kernel
  obtain ⟨t, ht, ho⟩ := Option.map_eq_some_iff.mp hn
  exact ⟨t, next_of ht, helloFrame, by rw [ho]; exact List.mem_cons_of_mem _ List.mem_cons_self, by decide +kernel⟩

/-- TerminationAckNeverHeld: a termination blocked in EOT, with the answer to it next. -/
theorem witness_TerminationAckNeverHeld :
    let s : State := { awaiting 0 0 [] with
      state := .awaitingTerminationAck
      blockedWrite := some { bytes := [0x04], rest := [.sendRun, .enterDone] }
      inputs := [.tx .ok] }
    TerminationPending s ∧ ∃ t, step s = .next t ∧ t.blockedWrite = none :=
  ⟨fun _ => ⟨_, rfl, rfl⟩, _, rfl, rfl⟩

/-- EarlierRegistersReachNothing: two states after reset that differ in every register without a value. -/
theorem witness_EarlierRegistersReachNothing :
    State.reset.state.idleLike = true ∧ State.reset.blockedWrite = none ∧
      SameOutside State.reset { State.reset with
        blockNumber := 7, currentTry := 7, maxRetryL := 7, fileSize := 7, totalBlocks := 7, srcPos := 7, chunkLen := 7
        blockIndex := 7, eofReached := true, runFlag := true, blockCrc := 7, pbuf := [(0, 7)] } ∧
      ∀ i ∈ State.reset.inputs, i.external = true := by decide

/-- AcknowledgedSessionSendsFile: P3's file with a handshake and one ACK and one answer in the queue; and the empty file
with a handshake only. -/
theorem witness_AcknowledgedSessionSendsFile :
    let s : State := { awaiting 5 1 helloSource with
      inputs := [peerSends 0x43, peerSends 0x06, .reset], txAnswers := [.ok] }
    let e : State := { awaiting 0 0 [] with inputs := [peerSends 0x43] }
    (Inv s ∧ s.state = .awaitingStart ∧ s.blockedWrite = none ∧ (∀ a ∈ s.txAnswers, a = .ok) ∧
      s.inputs = peerSends 0x43 :: (List.replicate s.totalBlocks.toNat (peerSends 0x06) ++ [.reset])) ∧
    (Inv e ∧ e.state = .awaitingStart ∧ e.blockedWrite = none ∧ (∀ a ∈ e.txAnswers, a = .ok) ∧
      e.inputs = peerSends 0x43 :: (List.replicate e.totalBlocks.toNat (peerSends 0x06) ++ [])) := by
  refine ⟨⟨⟨by decide, by decide, by decide, fun h => (by cases h), ⟨by decide, fun _ h => (by cases h)⟩,
      by decide +kernel⟩, rfl, rfl, by decide, rfl⟩,
    ⟨⟨by decide, by decide, by decide, fun h => (by cases h), ⟨by decide, fun _ h => (by cases h)⟩, by decide⟩,
      rfl, rfl, by decide, rfl⟩⟩

/-- RetryBudgetSpent: P3 after its first NAK, with one retry left and two answers in the queue. -/
theorem witness_RetryBudgetSpent :
    let s : State := { sendingHello with
      currentTry := 1, inputs := [peerSends 0x15, peerSends 0x15], txAnswers := [.ok, .ok] }
    s.state = .sendingBlock ∧ s.blockedWrite = none ∧ payload s = some helloPayload ∧ (∀ a ∈ s.txAnswers, a = .ok) ∧
      s.currentTry.toNat ≤ s.maxRetryL.toNat ∧
      s.inputs = List.replicate (s.maxRetryL.toNat - s.currentTry.toNat + 1) (peerSends 0x15) ++ [] := by
  decide +kernel

/-- AnsweredSessionEnds: one block and two retries, so three answers; the transport fails no write here. -/
theorem witness_AnsweredSessionEnds :
    let bs : List Byte := [0x15, 0x06, 0x18]
    let s : State := { sendingHello with inputs := bs.map peerSends, txAnswers := [.ok] }
    Inv s ∧ s.state = .sendingBlock ∧ s.blockedWrite = none ∧ (∀ a ∈ s.txAnswers, a.isAnswer = true) ∧
      (∀ b ∈ bs, b = 0x06 ∨ b = 0x15 ∨ b = 0x18) ∧
      bs.length = (s.totalBlocks.toNat - s.blockIndex.toNat + 1) * (s.maxRetryL.toNat + 1) - s.currentTry.toNat ∧
      s.inputs = bs.map peerSends ++ [] := by
  exact ⟨inv_of_inputs sendingHello_inv.1 _ (by decide), rfl, rfl, by decide, by decide, by decide +kernel, rfl⟩

end Sys2Proof.Tests
end

/-! SUPPORT. The obligations of 00_scope.md: what is constant for a session (R7) and what one step of R14 transmits. -/

namespace Sys2Proof.Machine

/-! ## Answers and flows -/

/-- What holds of `ok` and of every answer in the queue holds of the answer to the next write. -/
theorem nextAnswer_of_forall {p : TxAnswer → Prop} {s : State} (hok : p .ok) (h : ∀ a ∈ s.txAnswers, p a) :
    p s.nextAnswer := by
  rw [State.nextAnswer]
  cases hq : s.txAnswers with
  | nil => exact hok
  | cons a l => exact h a (hq ▸ List.mem_cons_self)

/-- What holds of every next state of a flow, is kept by the part `p` and does not see a wait, holds after `p`. -/
theorem andThen_preserves {P : State → Prop} {f : Flow} {p : RowPart}
    (hrun : ∀ u v, P u → (p.run u).outcome = .next v → P v) (hwait : ∀ u, P u → P (u.postpone p))
    (hf : ∀ u, f.outcome = .next u → P u) : ∀ t, (f.andThen p).outcome = .next t → P t := by
  intro t h
  cases f with
  | go u => exact hrun u t (hf u rfl) h
  | ended u => exact hf t h
  | waiting u => cases h; exact hwait u (hf u rfl)
  | stuck e => cases h

/-- R214: a late answer does what the same answer at the head of the queue would have done. -/
theorem resumeWrite_eq_txWrite (w : BlockedWrite) (a : TxAnswer) (s : State) :
    resumeWrite w a s = w.rest.foldl Flow.andThen
      (txWrite w.bytes { s with blockedWrite := none, txAnswers := a :: s.txAnswers }) := rfl

theorem not_idleLike_of_busy {e : EngineState} (h : e.busy = true) : e.idleLike = false := by
  revert h; cases e <;> decide

/-- A host word is met with a next state in an idle-like state only; it transmits nothing. -/
theorem execDecodeHost_next {w : HostWord} {s t : State} (h : exec (decodeHost w) s = .next t) :
    s.state.idleLike = true ∧ t.runByte = s.runByte ∧ t.outputs = s.outputs := by
  rcases decodeHost_cases w with ⟨st, run, maxRetry, size, hw⟩ | ⟨run, maxRetry, size, hw⟩
  · rw [hw] at h
    obtain ⟨hi, ⟨_, rfl⟩ | ⟨_, rfl⟩ | ⟨_, rfl⟩⟩ := execHostStart_next h <;> exact ⟨hi, rfl, rfl⟩
  · rw [hw] at h; cases h

/-! ## What is constant for a session -/

/-- R27, R30, R33, R34, R39: the operands of the session and its source. -/
def State.session (s : State) : Word32 × Byte × Word32 × Bool × Memory :=
  (s.fileSize, s.maxRetryL, s.totalBlocks, s.runFlag, s.source)

/-- From `s` to `t`, RUN_BYTE stays, answers are only taken from the queue, and the session's constants stay unless the
queue cuts a write. -/
structure KeepsSession (s t : State) : Prop where
  runByte : t.runByte = s.runByte
  answers : t.txAnswers ⊆ s.txAnswers
  session : (∀ a ∈ s.txAnswers, a.cuts = false) → t.session = s.session

namespace KeepsSession

variable {s t u : State} {f : Flow}

theorem of_eq (hr : t.runByte = s.runByte) (ha : t.txAnswers = s.txAnswers) (hs : t.session = s.session) :
    KeepsSession s t :=
  ⟨hr, ha ▸ List.Subset.refl _, fun _ => hs⟩

theorem trans (h : KeepsSession s t) (h' : KeepsSession t u) : KeepsSession s u where
  runByte := h'.runByte.trans h.runByte
  answers := List.Subset.trans h'.answers h.answers
  session hq := (h'.session fun a ha => hq a (h.answers ha)).trans (h.session hq)

theorem of_txWrite {bs : List Byte} (h : (txWrite bs s).outcome = .next t) : KeepsSession s t := by
  rcases txWrite_next h with ⟨_, rfl⟩ | ⟨k, _, rfl⟩ | ⟨k, ha, rfl⟩ | ⟨_, rfl⟩
  · exact ⟨rfl, List.tail_subset _, fun _ => rfl⟩
  · exact ⟨rfl, List.tail_subset _, fun _ => rfl⟩
  · refine ⟨rfl, List.tail_subset _, fun hq => ?_⟩
    have hcut := nextAnswer_of_forall (p := fun a => a.cuts = false) rfl hq
    rw [ha] at hcut; cases hcut
  · exact ⟨rfl, List.tail_subset _, fun _ => rfl⟩

theorem of_sendFrame (h : (sendFrame s).outcome = .next t) : KeepsSession s t := by
  rcases sendFrame_cases s with ⟨_, hs⟩ | ⟨bs, _, hs⟩ <;> rw [hs] at h
  · cases h
  · exact (of_eq rfl rfl rfl : KeepsSession s s.reportProgress).trans (of_txWrite h)

theorem of_sendRun (h : (sendRun s).outcome = .next t) : KeepsSession s t := by
  rw [sendRun_eq] at h
  split at h
  · exact of_txWrite h
  · cases h; exact of_eq rfl rfl rfl

theorem of_run {p : RowPart} (h : (p.run s).outcome = .next t) : KeepsSession s t := by
  cases p with
  | enterSending => cases h; exact of_eq rfl rfl rfl
  | sendFrame => exact of_sendFrame h
  | sendRun => exact of_sendRun h
  | enterDone => cases h; exact of_eq rfl rfl rfl

theorem andThen {p : RowPart} (hf : ∀ u, f.outcome = .next u → KeepsSession s u) :
    ∀ t, (f.andThen p).outcome = .next t → KeepsSession s t :=
  andThen_preserves (fun _ _ hu hv => hu.trans (of_run hv)) (fun _ hu => hu.trans (of_eq rfl rfl rfl)) hf

theorem foldl_andThen (l : List RowPart) (hf : ∀ u, f.outcome = .next u → KeepsSession s u) :
    ∀ t, (l.foldl Flow.andThen f).outcome = .next t → KeepsSession s t := by
  induction l generalizing f with
  | nil => exact hf
  | cons p l ih => exact ih (andThen hf)

theorem of_enterTermination (h : (enterTermination s).outcome = .next t) : KeepsSession s t := by
  rw [enterTermination_eq] at h
  exact (of_eq rfl rfl rfl : KeepsSession s s.enterTerminationAck).trans
    (andThen (andThen fun _ => of_txWrite) t h)

theorem of_loadBlock (h : (loadBlock s).outcome = .next t) : KeepsSession s t := by
  obtain ⟨c, p, r, hl⟩ := loadBlock_frame s
  rw [hl] at h; cases h
  exact of_eq rfl rfl rfl

/-- Every meaning keeps the session but START, which an idle-like state alone accepts. -/
theorem of_exec {i : Instr} (h : exec i s = .next t) :
    KeepsSession s t ∨ s.state.idleLike = true ∧ t.runByte = s.runByte := by
  cases i with
  | rxHandshake =>
    left
    rcases execRxHandshake_next h with ⟨_, rfl⟩ | ⟨_, _, h⟩ | ⟨_, _, h⟩
    · exact of_eq rfl rfl rfl
    · exact (of_eq rfl rfl rfl : KeepsSession s (s.rewind.setEof true)).trans (of_enterTermination h)
    · exact (of_eq rfl rfl rfl : KeepsSession s (s.rewind.setEof false)).trans
        (andThen (andThen fun _ => of_loadBlock) t h)
  | rxAck =>
    left
    rcases execRxAck_next h with ⟨_, rfl⟩ | ⟨_, _, h⟩ | ⟨_, _, h⟩
    · exact of_eq rfl rfl rfl
    · exact (of_eq rfl rfl rfl : KeepsSession s (s.advanceBlock.setEof true)).trans (of_enterTermination h)
    · exact (of_eq rfl rfl rfl : KeepsSession s s.advanceBlock).trans (andThen (fun _ => of_loadBlock) t h)
  | rxNak =>
    left
    rcases execRxNak_next h with ⟨_, rfl⟩ | ⟨_, _, rfl⟩ | ⟨_, _, h⟩
    · exact of_eq rfl rfl rfl
    · exact of_eq rfl rfl rfl
    · exact (of_eq rfl rfl rfl : KeepsSession s s.countRetry).trans (of_sendFrame h)
  | rxCan => left; rcases execRxCan_next h with ⟨_, rfl⟩ | ⟨_, rfl⟩ <;> exact of_eq rfl rfl rfl
  | rxFail => left; rcases execRxFail_next h with ⟨_, rfl⟩ | ⟨_, rfl⟩ <;> exact of_eq rfl rfl rfl
  | txFrame => exact .inl (of_sendFrame h)
  | txEot => exact .inl (of_txWrite h)
  | txRun => exact .inl (of_sendRun h)
  | hostStart status run maxRetry size =>
    right
    obtain ⟨hi, ⟨_, rfl⟩ | ⟨_, rfl⟩ | ⟨_, rfl⟩⟩ := execHostStart_next h <;> exact ⟨hi, rfl⟩
  | hostStartRsv | crcRsv => cases h
  | rxOther | crcHold | crcClear | crcUpdate => cases h; exact .inl (of_eq rfl rfl rfl)

/-- The rest of a blocked step keeps the session, with the late answer counted as one of the queue's. -/
theorem of_resumeWrite {w : BlockedWrite} {a : TxAnswer} (h : (resumeWrite w a s).outcome = .next t) :
    KeepsSession { s with blockedWrite := none, txAnswers := a :: s.txAnswers } t := by
  rw [resumeWrite_eq_txWrite] at h
  exact foldl_andThen w.rest (fun _ => of_txWrite) t h

end KeepsSession

theorem exec_keeps_runByte {i : Instr} {s t : State} (h : exec i s = .next t) : t.runByte = s.runByte :=
  (KeepsSession.of_exec h).elim KeepsSession.runByte And.right

theorem exec_keeps_session {i : Instr} {s t : State} (h : exec i s = .next t) (hb : s.state.busy = true)
    (hq : ∀ a ∈ s.txAnswers, a.cuts = false) : t.session = s.session := by
  rcases KeepsSession.of_exec h with hk | ⟨hi, _⟩
  · exact hk.session hq
  · rw [not_idleLike_of_busy hb] at hi; cases hi

/-- R7: no step changes RUN_BYTE. -/
theorem step_keeps_runByte {s t : State} (h : step s = .next t) : t.runByte = s.runByte := by
  rcases step_next h with ⟨_, rfl⟩ | ⟨i, rest, _, ⟨a, _, _, _, j, _, he⟩ | ⟨a, _, _, rfl⟩ | ⟨a, w, _, _, he⟩ |
    ⟨w, m, _, _, he⟩ | ⟨_, rfl⟩ | ⟨b, _, _, rfl⟩ | ⟨w, _, _, he⟩ | ⟨b, _, _, j, _, he⟩⟩
  · rfl
  · exact (exec_keeps_runByte he :)
  · rfl
  · exact (KeepsSession.of_resumeWrite he).runByte
  · exact (exec_keeps_runByte he :)
  · rfl
  · rfl
  · exact (exec_keeps_runByte he :)
  · exact (exec_keeps_runByte he :)

/-- A step of a busy engine keeps the session's constants where no reset comes or cuts a write. -/
theorem step_keeps_session {s t : State} (h : step s = .next t) (hb : s.state.busy = true) (hcut : NoCut s)
    (hreset : ∀ rest, takeInput s.accepts s.inputs ≠ some (.reset, rest)) : t.session = s.session := by
  obtain ⟨hqueue, hinputs⟩ := hcut
  rcases step_next h with ⟨_, rfl⟩ | ⟨i, rest, ht, ⟨a, _, _, _, j, _, he⟩ | ⟨a, _, _, rfl⟩ | ⟨a, w, rfl, _, he⟩ |
    ⟨w, m, _, _, he⟩ | ⟨rfl, _⟩ | ⟨b, _, _, rfl⟩ | ⟨w, _, _, he⟩ | ⟨b, _, _, j, _, he⟩⟩
  · rfl
  · exact (exec_keeps_session he hb hqueue :)
  · rfl
  · have ha : a.cuts = false := hinputs a (takeInput_mem ht).2.1
    exact (KeepsSession.of_resumeWrite he).session (List.forall_mem_cons.mpr ⟨ha, hqueue⟩)
  · have hi : s.state.idleLike = true := (execDecodeHost_next he).1
    rw [not_idleLike_of_busy hb] at hi; cases hi
  · exact absurd ht (hreset rest)
  · rfl
  · exact (exec_keeps_session he hb hqueue :)
  · exact (exec_keeps_session he hb hqueue :)

/-- Settles O50: START alone writes the session's constants, a busy engine refuses it, and only a reset clears them. -/
theorem sessionConstants : Obligations.SessionConstants := by
  intro s t h
  refine ⟨step_keeps_runByte h, fun hb hcut hreset => ?_⟩
  simpa only [State.session, Prod.mk.injEq] using step_keeps_session h hb hcut hreset

/-! ## What one step transmits -/

/-- R177: one block attempt, for the next block with a fresh retry count or for the same block with one retry more. -/
def AttemptsBlock (s t : State) : Prop :=
  ∃ d, t.outputs = s.outputs ++ [.progress t.blockIndex s.totalBlocks, .wire d] ∧ d.length ≤ 133 ∧
    (t.blockIndex = s.blockIndex + 1 ∧ t.currentTry = 0 ∨
      t.blockIndex = s.blockIndex ∧ t.currentTry = s.currentTry + 1)

/-- R178: the writes of a termination, the last of them possibly failed. -/
def WritesTermination (s t : State) : Prop :=
  ∃ units ∈ [[[]], [[0x04]], [[0x04], []], [[0x04], [s.runByte]]], t.outputs = s.outputs ++ units.map .wire

/-- R14: nothing, one block attempt, or the writes of a termination. -/
def OneAttempt (s t : State) : Prop :=
  t.outputs = s.outputs ∨ AttemptsBlock s t ∨ WritesTermination s t

theorem frameBytes_length {s : State} {bs : List Byte} (h : payload s = some bs) (n : Byte) (crc : Word16) :
    (frameBytes n bs crc).length = 133 := by
  simp [frameBytes, payload_length h, Config.blockSize]

/-- R177: an answered block attempt is one progress event and one write of at most a whole frame. -/
theorem sendFrame_answered {s t : State} (h : (sendFrame s).outcome = .next t)
    (hans : ∀ a ∈ s.txAnswers, a.isAnswer = true) :
    (∃ d, t.outputs = s.outputs ++ [.progress s.blockIndex s.totalBlocks, .wire d] ∧ d.length ≤ 133) ∧
      t.blockIndex = s.blockIndex ∧ t.currentTry = s.currentTry := by
  have hnext := nextAnswer_of_forall (p := fun a => a.isAnswer = true) rfl hans
  obtain ⟨bs, hp, ⟨_, rfl⟩ | ⟨k, _, rfl⟩ | ⟨k, ha, _⟩ | ⟨ha, _⟩⟩ := sendFrame_next h
  · exact ⟨⟨_, rfl, (frameBytes_length hp _ _).le⟩, rfl, rfl⟩
  · exact ⟨⟨_, rfl, (strictPrefix_isPrefix _ _).length_le.trans (frameBytes_length hp _ _).le⟩, rfl, rfl⟩
  · rw [ha] at hnext; cases hnext
  · rw [ha] at hnext; cases hnext

/-- R142, R178: an answered termination makes its writes up to the first that fails. -/
theorem enterTermination_answered {s t : State} (h : (enterTermination s).outcome = .next t)
    (hans : ∀ a ∈ s.txAnswers, a.isAnswer = true) : WritesTermination s t := by
  rcases enterTermination_next h with rfl | ⟨k, n, _, _, o, rfl, rfl | rfl⟩ | ⟨k, n, hcut, _⟩ | ⟨hpend, _⟩
  · refine ⟨s.terminationUnits, ?_, rfl⟩
    cases hr : s.runFlag <;> simp [State.terminationUnits, State.runUnits, hr, Wire.eot]
  · exact ⟨[[]], by simp, rfl⟩
  · exact ⟨[[0x04], []], by simp, rfl⟩
  · cases hans _ (List.mem_of_getElem? hcut)
  · cases hans _ hpend

section
variable {s t : State} (hans : ∀ a ∈ s.txAnswers, a.isAnswer = true)
include hans

/-- R135: the handshake attempts block 1, or ends the session of an empty source. -/
theorem execRxHandshake_oneAttempt (hfacts : AwaitingFacts s) (h : exec .rxHandshake s = .next t) :
    OneAttempt s t := by
  rcases execRxHandshake_next h with ⟨_, rfl⟩ | ⟨_, _, h⟩ | ⟨hs, _, h⟩
  · exact .inl rfl
  · exact .inr (.inr (enterTermination_answered h hans :))
  · obtain ⟨_, _, _, _, _, hindex, _⟩ := hfacts hs
    obtain ⟨c, p, r, hl⟩ := loadBlock_frame (s.rewind.setEof false)
    rw [hl, Flow.andThen_go, RowPart.run_enterSending, Flow.andThen_go, RowPart.run_sendFrame] at h
    obtain ⟨⟨d, ho, hd⟩, hi, ht⟩ := sendFrame_answered h hans
    exact .inr (.inl ⟨d, hi ▸ ho, hd, .inl ⟨by rw [hindex]; exact hi, ht⟩⟩)

/-- R138: an ACK attempts the next block, or ends the session of an exhausted source. -/
theorem execRxAck_oneAttempt (h : exec .rxAck s = .next t) : OneAttempt s t := by
  rcases execRxAck_next h with ⟨_, rfl⟩ | ⟨_, _, h⟩ | ⟨_, _, h⟩
  · exact .inl rfl
  · exact .inr (.inr (enterTermination_answered h hans :))
  · obtain ⟨c, p, r, hl⟩ := loadBlock_frame s.advanceBlock
    rw [hl, Flow.andThen_go, RowPart.run_sendFrame] at h
    obtain ⟨⟨d, ho, hd⟩, hi, ht⟩ := sendFrame_answered h hans
    exact .inr (.inl ⟨d, hi ▸ ho, hd, .inl ⟨hi, ht⟩⟩)

/-- R139: a NAK attempts the same block once more, or ends the session. -/
theorem execRxNak_oneAttempt (h : exec .rxNak s = .next t) : OneAttempt s t := by
  rcases execRxNak_next h with ⟨_, rfl⟩ | ⟨_, _, rfl⟩ | ⟨_, _, h⟩
  · exact .inl rfl
  · exact .inl rfl
  · obtain ⟨⟨d, ho, hd⟩, hi, ht⟩ := sendFrame_answered h hans
    exact .inr (.inl ⟨d, hi ▸ ho, hd, .inr ⟨hi, ht⟩⟩)

/-- R132: what the transport answers a read with makes the engine transmit one attempt at most. -/
theorem execReceived_oneAttempt (hfacts : AwaitingFacts s) {a : RxAnswer} {j : Instr} {runByte : Byte}
    (hj : decode runByte a.coded = .ok j) (h : exec j s = .next t) : OneAttempt s t := by
  cases a with
  | byte b =>
    cases hj
    rcases decodeRx_cases b with hb | hb | hb | hb | hb <;> rw [hb] at h
    · exact execRxHandshake_oneAttempt hans hfacts h
    · exact execRxAck_oneAttempt hans h
    · exact execRxNak_oneAttempt hans h
    · rcases execRxCan_next h with ⟨_, rfl⟩ | ⟨_, rfl⟩ <;> exact .inl rfl
    · cases h; exact .inl rfl
  | rxfail =>
    cases hj
    rcases execRxFail_next h with ⟨_, rfl⟩ | ⟨_, rfl⟩ <;> exact .inl rfl

/-- R14: one step of an unblocked engine transmits one attempt at most. -/
theorem step_oneAttempt (hfacts : AwaitingFacts s) (hblocked : s.blockedWrite = none)
    (hext : ∀ i ∈ s.inputs, i.external = true) (h : step s = .next t) : OneAttempt s t := by
  rcases step_next h with ⟨_, rfl⟩ | ⟨i, rest, htake, ⟨a, _, _, _, j, hj, he⟩ | ⟨a, _, _, rfl⟩ | ⟨a, w, _, hw, _⟩ |
    ⟨w, m, _, _, he⟩ | ⟨_, rfl⟩ | ⟨b, _, _, rfl⟩ | ⟨w, rfl, _, _⟩ | ⟨b, rfl, _, _⟩⟩
  · exact .inl rfl
  · exact execReceived_oneAttempt (s := { s with inputs := rest }) hans hfacts hj he
  · exact .inl rfl
  · rw [hblocked] at hw; cases hw
  · exact .inl (execDecodeHost_next he).2.2
  · exact .inl rfl
  · exact .inl rfl
  · cases hext _ (takeInput_mem htake).2.1
  · cases hext _ (takeInput_mem htake).2.1

end

/-- Settles O52: a step's one transmission is the block attempt or the termination its row ends in; before the handshake
`blockIndex` is 0, so block 1 is the next block. -/
theorem oneAttemptPerStep : Obligations.OneAttemptPerStep := by
  intro s t ⟨_, _, hfacts, _⟩ hblocked hext hans h
  exact step_oneAttempt hans hfacts hblocked hext h

end Sys2Proof.Machine

/-! SUPPORT. The obligations of 10_state.md: the invariant is kept by every step (R14, R21, R48). -/

namespace Sys2Proof.Machine

/-! ## Where the invariant has little to say -/

/-- R21, R87: a session that runs has no result yet. -/
theorem result_of_busy {s : State} (h : StateResultPair s) (hs : s.state.busy = true) : s.result = .none := by
  obtain ⟨-, hstart, hsending, hack, -⟩ := h
  cases he : s.state with
  | awaitingStart => exact hstart he
  | sendingBlock => exact hsending he
  | awaitingTerminationAck => exact hack he
  | idle | done | failed | cancelled => rw [he] at hs; cases hs

/-- Outside the busy states, with no blocked write, the invariant is the pair of R87, the counter bounds and the
canonical memories. -/
theorem inv_of_idleLike {s : State} (hs : s.state.idleLike = true) (hb : s.blockedWrite = none)
    (hresult : StateResultPair s) (hcounters : CountersBounded s) (hmem : MemoriesCanonical s) : Inv s := by
  have hstart : s.state ≠ .awaitingStart := fun h => by rw [h] at hs; cases hs
  have hsending : s.state ≠ .sendingBlock := fun h => by rw [h] at hs; cases hs
  have hack : s.state ≠ .awaitingTerminationAck := fun h => by rw [h] at hs; cases hs
  refine ⟨hresult, hcounters, fun h => absurd h hstart, fun h => absurd h hsending, ⟨fun _ => hack, ?_⟩, hmem⟩
  rw [hb]
  exact fun w hw => nomatch hw

/-- R203: a session that fails with nothing blocked keeps the invariant, whichever state it fails in. -/
theorem inv_enterFailed {s : State} {kind : SessionResult}
    (hk : kind ∈ [SessionResult.sourceNotFound, .sourceOpenFailed, .transportFailure, .retryLimitExceeded])
    (hb : s.blockedWrite = none) (hcounters : CountersBounded s) (hmem : MemoriesCanonical s) :
    Inv (s.enterFailed kind) :=
  inv_of_idleLike rfl hb (by simpa [StateResultPair] using hk) hcounters hmem

theorem inv_hardReset {s : State} (hmem : MemoriesCanonical s) : Inv s.hardReset :=
  inv_of_idleLike rfl rfl (by simp [StateResultPair, State.reset]) (by simp [CountersBounded, State.reset])
    ⟨rfl, hmem.2⟩

/-- A late answer frees the engine of its blocked write. Outside a termination the invariant asks no more. -/
theorem inv_unblocked {s : State} (h : Inv s) (hs : s.state ≠ .awaitingTerminationAck) :
    Inv { s with blockedWrite := none } :=
  let ⟨hresult, hcounters, hstart, hsending, _, hmem⟩ := h
  ⟨hresult, hcounters, hstart, hsending, ⟨fun _ => hs, fun _ hw => (nomatch hw)⟩, hmem⟩

/-! ## Writes -/

/-- R84, R91: the bytes are those of a unit the engine can transmit in this state. -/
def State.isUnit (s : State) (bs : List Byte) : Prop :=
  frame s = some bs ∨ bs = [Wire.eot] ∨ bs = [s.runByte]

/-- R29, R214: whatever the answer to the write of a unit, the invariant is kept. -/
theorem answerWrite_keeps_inv {a : TxAnswer} {bs : List Byte} {s t : State} (hinv : Inv s)
    (hb : s.blockedWrite = none) (hunit : s.isUnit bs) (h : (answerWrite a bs s).outcome = .next t) : Inv t := by
  have ⟨hresult, hcounters, hstart, hsending, ⟨hack, _⟩, hmem⟩ := hinv
  rcases answerWrite_cases a bs s with ⟨_, hw⟩ | ⟨k, _, hw⟩ | ⟨k, _, hw⟩ | ⟨_, hw⟩ <;> rw [hw] at h <;> cases h
  · exact hinv
  · exact inv_enterFailed (by simp) hb hcounters hmem
  · exact inv_hardReset hmem
  · refine ⟨hresult, hcounters, hstart, hsending, ⟨fun hn => (nomatch hn), fun w hw => ?_⟩, hmem⟩
    cases hw
    exact .inl ⟨hack hb, rfl, hunit⟩

theorem txWrite_keeps_inv {bs : List Byte} {s t : State} (hinv : Inv s) (hb : s.blockedWrite = none)
    (hunit : s.isUnit bs) (h : (txWrite bs s).outcome = .next t) : Inv t :=
  answerWrite_keeps_inv (s := s.popAnswer) hinv hb hunit h

theorem sendFrame_keeps_inv {s t : State} (hinv : Inv s) (hb : s.blockedWrite = none)
    (h : (sendFrame s).outcome = .next t) : Inv t := by
  rcases sendFrame_cases s with ⟨_, hs⟩ | ⟨bs, hp, hs⟩ <;> rw [hs] at h
  · cases h
  · exact txWrite_keeps_inv (s := s.reportProgress) hinv hb (.inl (frame_of_payload hp)) h

theorem sendRun_keeps_inv {s t : State} (hinv : Inv s) (hb : s.blockedWrite = none)
    (h : (sendRun s).outcome = .next t) : Inv t := by
  rw [sendRun_eq] at h
  split at h
  · exact txWrite_keeps_inv hinv hb (.inr (.inr rfl)) h
  · cases h; exact hinv

/-! ## Terminations -/

/-- R142: inside the step that terminates a session, with nothing blocked. No step boundary holds such a state. -/
structure Terminating (s : State) : Prop where
  state : s.state = .awaitingTerminationAck
  result : s.result = .none
  unblocked : s.blockedWrite = none
  counters : CountersBounded s
  memories : MemoriesCanonical s

/-- A termination blocked in the write `w` keeps the invariant where the rest of its row is right. -/
theorem Terminating.inv_blocked {s : State} {w : BlockedWrite} (hs : Terminating s)
    (hw : w.rest = [.sendRun, .enterDone] ∧ w.bytes = [Wire.eot] ∨
      w.rest = [.enterDone] ∧ s.runFlag = true ∧ w.bytes = [s.runByte]) :
    Inv { s with blockedWrite := some w } := by
  refine ⟨by simp [StateResultPair, hs.state, hs.result], hs.counters, ?_, ?_, ⟨fun hn => (nomatch hn), ?_⟩,
    hs.memories⟩
  · intro h; cases hs.state.symm.trans h
  · intro h; cases hs.state.symm.trans h
  · intro w' hw'
    cases hw'
    exact .inr (hw.imp (fun h => ⟨hs.state, h⟩) fun h => ⟨hs.state, h⟩)

theorem Terminating.inv_failed {s : State} (hs : Terminating s) : Inv (s.enterFailed .transportFailure) :=
  inv_enterFailed (by simp) hs.unblocked hs.counters hs.memories

/-- R142, R178: from RUN on. -/
theorem Terminating.sendRun_enterDone {s t : State} (hs : Terminating s)
    (h : ((sendRun s).andThen .enterDone).outcome = .next t) : Inv t := by
  rcases sendRun_enterDone_next h with rfl | ⟨_, k, _, rfl⟩ | ⟨_, k, _, rfl⟩ | ⟨hr, _, rfl⟩
  · exact inv_of_idleLike rfl hs.unblocked (by simp [StateResultPair]) hs.counters hs.memories
  · exact hs.inv_failed
  · exact inv_hardReset hs.memories
  · exact hs.inv_blocked (.inr ⟨rfl, hr, rfl⟩)

/-- R142, R178: from the answer to EOT on. -/
theorem Terminating.after_eot {a : TxAnswer} {s t : State} (hs : Terminating s)
    (h : (((answerWrite a [Wire.eot] s).andThen .sendRun).andThen .enterDone).outcome = .next t) : Inv t := by
  rcases termination_parts_next h with ⟨_, h⟩ | ⟨k, _, rfl⟩ | ⟨k, _, rfl⟩ | ⟨_, rfl⟩
  · have hs' : Terminating { s with outputs := s.outputs ++ [.wire [Wire.eot]] } :=
      ⟨hs.state, hs.result, hs.unblocked, hs.counters, hs.memories⟩
    exact hs'.sendRun_enterDone h
  · exact hs.inv_failed
  · exact inv_hardReset hs.memories
  · exact hs.inv_blocked (.inl ⟨rfl, rfl⟩)

/-- R142: from the answer to RUN on. -/
theorem Terminating.after_run {a : TxAnswer} {s t : State} (hs : Terminating s) (hr : s.runFlag = true)
    (h : ((answerWrite a [s.runByte] s).andThen .enterDone).outcome = .next t) : Inv t := by
  have hlate : ((sendRun { s with txAnswers := a :: s.txAnswers }).andThen .enterDone).outcome = .next t := by
    rw [sendRun_eq, if_pos hr]
    exact h
  exact Terminating.sendRun_enterDone (s := { s with txAnswers := a :: s.txAnswers })
    ⟨hs.state, hs.result, hs.unblocked, hs.counters, hs.memories⟩ hlate

theorem enterTermination_keeps_inv {s t : State} (hresult : s.result = .none) (hb : s.blockedWrite = none)
    (hcounters : CountersBounded s) (hmem : MemoriesCanonical s) (h : (enterTermination s).outcome = .next t) :
    Inv t :=
  Terminating.after_eot (s := s.enterTerminationAck.popAnswer) ⟨rfl, hresult, hb, hcounters, hmem⟩ h

/-! ## Blocks -/

/-- R24, R35, R37, R172: the registers name a block of the file, which `LoadBlock()` can then load. -/
structure AtBlock (s : State) : Prop where
  result : s.result = .none
  unblocked : s.blockedWrite = none
  total : s.totalBlocks = blockCount s.fileSize
  positive : 1 ≤ s.blockIndex.toNat
  number : s.blockNumber = s.blockIndex.setWidth 8
  position : s.srcPos.toNat = Config.blockSize * (s.blockIndex.toNat - 1)
  inside : s.srcPos.toNat < s.fileSize.toNat
  noEof : s.eofReached = false
  tries : s.currentTry.toNat ≤ s.maxRetryL.toNat
  memories : MemoriesCanonical s

theorem blockSize_eq : Config.blockSize = 128 := rfl

theorem blockCount_le (f : Word32) : (blockCount f).toNat ≤ 2 ^ 25 := by
  have := f.isLt
  rw [blockCount_toNat]
  omega

/-- R48: a block inside the file has an index of at most `totalBlocks`. -/
theorem blockIndex_le_totalBlocks {s : State} (htotal : s.totalBlocks = blockCount s.fileSize)
    (hpos : s.srcPos.toNat = Config.blockSize * (s.blockIndex.toNat - 1)) (hin : s.srcPos.toNat < s.fileSize.toNat) :
    s.blockIndex.toNat ≤ s.totalBlocks.toNat := by
  rw [blockSize_eq] at hpos
  rw [htotal, blockCount_toNat]
  omega

/-- R135, R138, R170: the block named by the registers, loaded and about to be sent, meets the invariant. -/
theorem AtBlock.inv_loaded {s : State} (hs : AtBlock s) : Inv s.loaded.enterSending := by
  have hindex := blockIndex_le_totalBlocks hs.total hs.position hs.inside
  have htotal : s.totalBlocks.toNat ≤ 2 ^ 25 := hs.total ▸ blockCount_le s.fileSize
  have hresult : s.loaded.result = .none := hs.result
  refine ⟨by simp [StateResultPair, hresult], ⟨Nat.le_of_lt hs.inside, htotal, Nat.le_succ_of_le hindex, hs.tries⟩,
    fun h => (nomatch h), fun _ => ?_,
    ⟨fun _ h => (nomatch h), fun w hw => nomatch hs.unblocked.symm.trans hw⟩, loaded_wf s, hs.memories.2⟩
  exact ⟨hs.total, hs.positive, hs.number, hs.position, hs.inside, rfl, hs.noEof, payload_loaded s, rfl⟩

/-- R135: a handshake names block 1 of a file that has a byte. -/
theorem atBlock_rewind {s : State} (hinv : Inv s) (hs : s.state = .awaitingStart) (hb : s.blockedWrite = none)
    (hsize : s.fileSize ≠ 0) : AtBlock (s.rewind.setEof false) := by
  obtain ⟨hresult, -, hstart, -, -, hmem⟩ := hinv
  obtain ⟨htotal, -⟩ := hstart hs
  have hpos : 0 < s.fileSize.toNat := Nat.pos_of_ne_zero fun h => hsize (BitVec.eq_of_toNat_eq h)
  have hnone : s.result = .none := result_of_busy hresult (by rw [hs]; rfl)
  exact {
    result := hnone
    unblocked := hb
    total := htotal
    positive := Nat.le_refl 1
    number := rfl
    position := rfl
    inside := hpos
    noEof := rfl
    tries := Nat.zero_le _
    memories := hmem }

/-- R138: the advance of an ACK, as numbers: it moves to the end of the block that was sent. -/
theorem advanceBlock_srcPos {s : State} (hc : s.chunkLen = chunkLength s.fileSize s.srcPos)
    (hp : s.srcPos.toNat < s.fileSize.toNat) :
    s.advanceBlock.srcPos.toNat = min (s.srcPos.toNat + Config.blockSize) s.fileSize.toNat := by
  have hlen := chunkLength_toNat s.fileSize s.srcPos
  have hsize := s.fileSize.isLt
  rw [State.advanceBlock_srcPos, BitVec.toNat_add, BitVec.toNat_setWidth, hc, hlen, blockSize_eq]
  omega

/-- R48, R138: the advance of an ACK keeps the counters in their bounds, and `blockIndex` does not wrap. -/
theorem advanceBlock_counters {s : State} (hinv : Inv s) (hs : s.state = .sendingBlock) :
    CountersBounded s.advanceBlock ∧ s.advanceBlock.blockIndex.toNat = s.blockIndex.toNat + 1 := by
  obtain ⟨-, ⟨-, htotal, -, -⟩, -, hsending, -, -⟩ := hinv
  obtain ⟨hcount, hone, -, hposition, hinside, hchunk, -⟩ := hsending hs
  have hpos := advanceBlock_srcPos hchunk hinside
  have hindex := blockIndex_le_totalBlocks hcount hposition hinside
  have hsucc : s.advanceBlock.blockIndex.toNat = s.blockIndex.toNat + 1 := by
    have hlt : s.blockIndex.toNat + 1 < 2 ^ 32 := by omega
    rw [State.advanceBlock_blockIndex, BitVec.toNat_add]
    exact Nat.mod_eq_of_lt hlt
  exact ⟨⟨by rw [hpos]; exact Nat.min_le_right _ _, htotal, by rw [hsucc]; exact Nat.succ_le_succ hindex,
    Nat.zero_le _⟩, hsucc⟩

/-- R138: an ACK that leaves source to send names the next block. -/
theorem atBlock_advanceBlock {s : State} (hinv : Inv s) (hs : s.state = .sendingBlock) (hb : s.blockedWrite = none)
    (hleft : s.advanceBlock.srcPos.toNat < s.fileSize.toNat) : AtBlock s.advanceBlock := by
  obtain ⟨-, hsucc⟩ := advanceBlock_counters hinv hs
  obtain ⟨hresult, -, -, hsending, -, hmem⟩ := hinv
  obtain ⟨hcount, hone, hnumber, hposition, hinside, hchunk, heof, -⟩ := hsending hs
  have hpos := advanceBlock_srcPos hchunk hinside
  have hnone : s.result = .none := result_of_busy hresult (by rw [hs]; rfl)
  exact {
    result := hnone
    unblocked := hb
    total := hcount
    positive := by omega
    number := by
      rw [State.advanceBlock_blockNumber, State.advanceBlock_blockIndex, hnumber, BitVec.setWidth_add _ _ (by decide)]
      rfl
    position := by
      have hnext : s.advanceBlock.srcPos.toNat = s.srcPos.toNat + Config.blockSize := by omega
      rw [hnext, hsucc, hposition, blockSize_eq]
      omega
    inside := hleft
    noEof := heof
    tries := Nat.zero_le _
    memories := hmem }

/-! ## Instructions -/

section
variable {s t : State} (hinv : Inv s) (hb : s.blockedWrite = none)
include hinv hb

theorem execRxHandshake_keeps_inv (h : exec .rxHandshake s = .next t) : Inv t := by
  rcases execRxHandshake_next h with ⟨_, rfl⟩ | ⟨hs, hz, h⟩ | ⟨hs, hz, h⟩
  · exact hinv
  · obtain ⟨hresult, ⟨-, htotal, -, -⟩, -, -, -, hmem⟩ := hinv
    have hnone : s.result = .none := result_of_busy hresult (by rw [hs]; rfl)
    refine enterTermination_keeps_inv (s := s.rewind.setEof true) hnone hb ?_ hmem h
    exact ⟨Nat.zero_le _, htotal, Nat.le_add_left 1 _, Nat.zero_le _⟩
  · have hblock := atBlock_rewind hinv hs hb hz
    rw [loadBlock_canonical hblock.memories.1, Flow.andThen_go, RowPart.run_enterSending, Flow.andThen_go] at h
    exact sendFrame_keeps_inv hblock.inv_loaded hb h

theorem execRxAck_keeps_inv (h : exec .rxAck s = .next t) : Inv t := by
  rcases execRxAck_next h with ⟨_, rfl⟩ | ⟨hs, _, h⟩ | ⟨hs, hleft, h⟩
  · exact hinv
  · obtain ⟨hcounters, -⟩ := advanceBlock_counters hinv hs
    obtain ⟨hresult, -, -, -, -, hmem⟩ := hinv
    have hnone : s.result = .none := result_of_busy hresult (by rw [hs]; rfl)
    exact enterTermination_keeps_inv (s := s.advanceBlock.setEof true) hnone hb hcounters hmem h
  · have hblock := atBlock_advanceBlock hinv hs hb hleft
    have hstays : s.advanceBlock.loaded.enterSending = s.advanceBlock.loaded := by
      simp [State.enterSending, State.loaded, State.advanceBlock, hs]
    have hloaded := hblock.inv_loaded
    rw [hstays] at hloaded
    rw [loadBlock_canonical hblock.memories.1, Flow.andThen_go] at h
    exact sendFrame_keeps_inv hloaded hb h

theorem execRxNak_keeps_inv (h : exec .rxNak s = .next t) : Inv t := by
  have ⟨hresult, hcounters, _, hsending, _, hmem⟩ := hinv
  rcases execRxNak_next h with ⟨_, rfl⟩ | ⟨_, _, rfl⟩ | ⟨hs, hlt, h⟩
  · exact hinv
  · exact inv_enterFailed (by simp) hb hcounters hmem
  · obtain ⟨hpos, htotal, hindex, -⟩ := hcounters
    have htry : s.countRetry.currentTry.toNat ≤ s.maxRetryL.toNat := by
      rw [State.countRetry_currentTry, BitVec.toNat_add]
      exact Nat.le_trans (Nat.mod_le _ _) hlt
    refine sendFrame_keeps_inv (s := s.countRetry)
      ⟨hresult, ⟨hpos, htotal, hindex, htry⟩, ?_, hsending, ?_, hmem⟩ hb h
    · intro hstart; cases hs.symm.trans hstart
    · exact ⟨fun _ hack => (nomatch hs.symm.trans hack), fun w hw => nomatch hb.symm.trans hw⟩

theorem execRxCan_keeps_inv (h : exec .rxCan s = .next t) : Inv t := by
  rcases execRxCan_next h with ⟨_, rfl⟩ | ⟨_, rfl⟩
  · exact hinv
  · obtain ⟨-, hcounters, -, -, -, hmem⟩ := hinv
    exact inv_of_idleLike rfl hb (by simp [StateResultPair]) hcounters hmem

theorem execRxFail_keeps_inv (h : exec .rxFail s = .next t) : Inv t := by
  rcases execRxFail_next h with ⟨_, rfl⟩ | ⟨_, rfl⟩
  · exact hinv
  · obtain ⟨-, hcounters, -, -, -, hmem⟩ := hinv
    exact inv_enterFailed (by simp) hb hcounters hmem

theorem execHostStart_keeps_inv {status : SrcStatus} {run : Bool} {maxRetry : Byte} {size : Word32}
    (h : exec (.hostStart status run maxRetry size) s = .next t) : Inv t := by
  obtain ⟨-, hcounters, -, -, -, hmem⟩ := hinv
  obtain ⟨-, ⟨_, rfl⟩ | ⟨_, rfl⟩ | ⟨_, rfl⟩⟩ := execHostStart_next h
  · refine ⟨by simp [StateResultPair], ⟨Nat.zero_le _, blockCount_le size, Nat.zero_le _, Nat.zero_le _⟩,
      fun _ => ⟨rfl, rfl, rfl, rfl, rfl, rfl, rfl⟩, fun hs => (nomatch hs), ?_, hmem⟩
    exact ⟨fun _ hack => (nomatch hack), fun w hw => nomatch hb.symm.trans hw⟩
  · exact inv_enterFailed (by simp) hb hcounters hmem
  · exact inv_enterFailed (by simp) hb hcounters hmem

/-- Every meaning keeps the invariant at a step boundary. -/
theorem exec_keeps_inv {i : Instr} (h : exec i s = .next t) : Inv t := by
  cases i with
  | rxHandshake => exact execRxHandshake_keeps_inv hinv hb h
  | rxAck => exact execRxAck_keeps_inv hinv hb h
  | rxNak => exact execRxNak_keeps_inv hinv hb h
  | rxCan => exact execRxCan_keeps_inv hinv hb h
  | rxFail => exact execRxFail_keeps_inv hinv hb h
  | txFrame => exact sendFrame_keeps_inv hinv hb h
  | txEot => exact txWrite_keeps_inv hinv hb (.inr (.inl rfl)) h
  | txRun => exact sendRun_keeps_inv hinv hb h
  | hostStart => exact execHostStart_keeps_inv hinv hb h
  | hostStartRsv | crcRsv => cases h
  | rxOther | crcHold | crcClear | crcUpdate => cases h; exact hinv

end

/-! ## Steps -/

/-- R214: the rest of a blocked step keeps the invariant. -/
theorem resumeWrite_keeps_inv {w : BlockedWrite} {a : TxAnswer} {s t : State} (hinv : Inv s)
    (hw : s.blockedWrite = some w) (h : (resumeWrite w a s).outcome = .next t) : Inv t := by
  have ⟨hresult, hcounters, _, _, ⟨_, hblocked⟩, hmem⟩ := hinv
  obtain ⟨bytes, rest⟩ := w
  have hterm : s.state = .awaitingTerminationAck → Terminating { s with blockedWrite := none } :=
    fun hs => ⟨hs, result_of_busy hresult (by rw [hs]; rfl), rfl, hcounters, hmem⟩
  rcases hblocked _ hw with ⟨hs, hrest, hunit⟩ | ⟨hs, hrest, hbytes⟩ | ⟨hs, hrest, hr, hbytes⟩
  · rw [resumeWrite_last hrest] at h
    exact answerWrite_keeps_inv (inv_unblocked hinv hs) rfl hunit h
  · cases hrest; cases hbytes
    exact (hterm hs).after_eot h
  · cases hrest; cases hbytes
    exact (hterm hs).after_run hr h

/-- A host word that answers a next state meets the engine idle-like, where the source may change. -/
theorem execDecodeHost_keeps_inv {w : HostWord} {m : Memory} {inputs : List Input} {s t : State} (hinv : Inv s)
    (hfree : s.state.busy = true ∨ s.blockedWrite = none) (hm : m.wf .src = true) (hi : ∀ i ∈ inputs, i.wf = true)
    (h : exec (decodeHost w) { s with inputs := inputs, source := m } = .next t) : Inv t := by
  obtain ⟨hidle, -⟩ := execDecodeHost_next h
  have hb : s.blockedWrite = none := hfree.resolve_left fun hbusy => by
    rw [not_idleLike_of_busy hbusy] at hidle; cases hidle
  obtain ⟨hresult, hcounters, -, -, -, hpbuf, -⟩ := hinv
  have hsource : Inv { s with inputs := inputs, source := m } :=
    inv_of_idleLike hidle hb hresult hcounters ⟨hpbuf, hm, hi⟩
  exact exec_keeps_inv hsource hb h

/-- Settles O48: by cases of what the step takes. Writes, terminations and block loads each keep the invariant, and each
row is one of them after its register updates. -/
theorem stepKeepsInv : Obligations.StepKeepsInv := by
  intro s t hinv h
  have ⟨_, _, _, _, _, hmem⟩ := hinv
  have ⟨hpbuf, hsource, hinputs⟩ := hmem
  rcases step_next h with ⟨_, rfl⟩ | ⟨i, rest, htake, hcases⟩
  · exact hinv
  obtain ⟨-, hi, hrest⟩ := takeInput_mem htake
  have hwf : ∀ j ∈ rest, j.wf = true := fun j hj => hinputs j (hrest j hj)
  have hinv' : Inv { s with inputs := rest } := inv_of_inputs hinv s.txAnswers hwf
  rcases hcases with ⟨a, _, _, hb, j, _, he⟩ | ⟨a, _, _, rfl⟩ | ⟨a, w, _, hw, he⟩ | ⟨w, m, rfl, hfree, he⟩ |
    ⟨_, rfl⟩ | ⟨b, _, _, rfl⟩ | ⟨w, _, hb, he⟩ | ⟨b, _, hb, j, _, he⟩
  · exact exec_keeps_inv hinv' hb he
  · exact inv_of_inputs hinv _ hwf
  · exact resumeWrite_keeps_inv hinv' hw he
  · exact execDecodeHost_keeps_inv hinv hfree (hinputs _ hi) hwf he
  · exact inv_hardReset (s := { s with inputs := rest }) ⟨hpbuf, hsource, hwf⟩
  · exact hinv'
  · exact exec_keeps_inv hinv' hb he
  · exact exec_keeps_inv hinv' hb he

end Sys2Proof.Machine

/-! SUPPORT. The obligations of 10_state.md: what a step does with the input it takes (R44), and that no run sees a
register before it has a value (R49, R50). -/

namespace Sys2Proof.Machine

/-! ## The step of each input -/

section
variable {s : State} {rest : List Input}

/-- R214: with nothing to take, the engine waits. -/
theorem step_of_nothing (h : takeInput s.accepts s.inputs = none) : step s = .next s := by
  simp only [step, fetch, h]

theorem step_of_rx {a : RxAnswer} {i : Instr} (h : takeInput s.accepts s.inputs = some (.rx a, rest))
    (hi : decode s.runByte a.coded = .ok i) : step s = exec i { s with inputs := rest } := by
  simp only [step, fetch, h, deliver, fetchCoded, hi]

theorem step_of_early_answer {a : TxAnswer} (h : takeInput s.accepts s.inputs = some (.tx a, rest))
    (hb : s.blockedWrite = none) :
    step s = .next { s with inputs := rest, txAnswers := s.txAnswers ++ [a] } := by
  simp only [step, fetch, h, deliver, hb]

theorem step_of_taken_answer {w : BlockedWrite} {a : TxAnswer}
    (h : takeInput s.accepts s.inputs = some (.tx a, rest)) (hb : s.blockedWrite = some w) :
    step s = (resumeWrite w a { s with inputs := rest }).outcome := by
  simp only [step, fetch, h, deliver, hb]

theorem step_of_host {w : HostWord} {m : Memory} (h : takeInput s.accepts s.inputs = some (.host w m, rest)) :
    step s = exec (decodeHost w) { s with inputs := rest, source := m } := by
  simp only [step, fetch, h, deliver, fetchCoded, decode]

theorem step_of_reset (h : takeInput s.accepts s.inputs = some (.reset, rest)) :
    step s = .next ({ s with inputs := rest } : State).hardReset := by
  simp only [step, fetch, h, deliver]

theorem step_of_breach_busy {b : HostBreach} (h : takeInput s.accepts s.inputs = some (.breach b, rest))
    (hb : s.state.busy = true) : step s = .refused (.hostBreach b) := by
  simp [step, fetch, h, deliver, State.busy, hb]

theorem step_of_breach_idle {b : HostBreach} (h : takeInput s.accepts s.inputs = some (.breach b, rest))
    (hb : s.state.busy = false) : step s = .next { s with inputs := rest } := by
  simp [step, fetch, h, deliver, State.busy, hb]

theorem step_of_crcOp {w : CrcWord} (h : takeInput s.accepts s.inputs = some (.crcOp w, rest)) :
    step s = exec (decodeCrc w) { s with inputs := rest } := by
  simp only [step, fetch, h, deliver, fetchCoded, decode]

theorem step_of_txUnit {b : Byte} {i : Instr} (h : takeInput s.accepts s.inputs = some (.txUnit b, rest))
    (hi : decodeTx s.runByte b = .ok i) : step s = exec i { s with inputs := rest } := by
  simp only [step, fetch, h, deliver, fetchCoded, decode, hi]

end

/-- Settles O44: the equation of `step` for each kind of input. -/
theorem stepRunsDecodedInput : Obligations.StepRunsDecodedInput := by
  intro s i rest
  refine ⟨?_, ?_, ?_, ?_, ?_⟩
  · intro a hr hb hin hi
    have htake : takeInput s.accepts s.inputs = some (.rx a, rest) := by
      rw [hin]
      exact takeInput_head rest (accepts_reading hr hb _)
    exact step_of_rx htake hi
  · intro w m htake hi
    cases hi
    exact step_of_host htake
  · intro w htake hi
    cases hi
    exact step_of_crcOp htake
  · intro b htake hi
    exact step_of_txUnit htake hi
  · intro w a hb htake
    exact step_of_taken_answer htake hb

/-! ## Twins: states that differ in PBUF and the CRC registers only -/

/-- The two states would send the same payload and CRC. -/
def SameFrame (s t : State) : Prop :=
  payload s = payload t ∧ s.blockCrc = t.blockCrc

/-- What two runs have in common from START on: every register but PBUF, `blockCrc` and `crc_r`, and from the first
block load on also what a frame is built of. What is left of a blocked step builds no frame. -/
structure Twin (s t : State) : Prop where
  registers : ∃ pbuf blockCrc crcR, t = { s with pbuf := pbuf, blockCrc := blockCrc, crcR := crcR }
  frame : s.state = .sendingBlock → SameFrame s t
  held : ∀ w, s.blockedWrite = some w → ∀ p ∈ w.rest, p = .sendRun ∨ p = .enterDone
  external : ∀ i ∈ s.inputs, i.external = true

/-- Two idle-like states with nothing blocked that agree outside, whatever their registers hold. -/
structure IdleAlike (s t : State) : Prop where
  idle : s.state.idleLike = true
  unblocked : s.blockedWrite = none
  outside : SameOutside s t
  external : ∀ i ∈ s.inputs, i.external = true

/-- Two states that no run can tell apart. -/
def Alike (s t : State) : Prop :=
  IdleAlike s t ∨ Twin s t

/-- Two pieces of a step that go on alike, with nothing blocked, or stop alike. -/
inductive Flow.Twins : Flow → Flow → Prop where
  | go {s t : State} (h : Twin s t) (hb : s.blockedWrite = none) : Twins (.go s) (.go t)
  | ended {s t : State} (h : Twin s t) : Twins (.ended s) (.ended t)
  | waiting {s t : State} (h : Twin s t) : Twins (.waiting s) (.waiting t)
  | stuck (f : Fault) : Twins (.stuck f) (.stuck f)

/-- Two steps that answer states alike, or stop for the same reason. -/
inductive OutcomesAlike : Host.Outcome State Fault Refusal → Host.Outcome State Fault Refusal → Prop where
  | next {s t : State} (h : Alike s t) : OutcomesAlike (.next s) (.next t)
  | fault (f : Fault) : OutcomesAlike (.fault f) (.fault f)
  | refused (r : Refusal) : OutcomesAlike (.refused r) (.refused r)

section
variable {s t : State}

theorem Twin.sameOutside (h : Twin s t) : SameOutside s t := by
  obtain ⟨p, c, r, rfl⟩ := h.registers
  exact ⟨rfl, rfl, rfl, rfl, rfl, rfl, rfl, rfl⟩

theorem Alike.sameOutside (h : Alike s t) : SameOutside s t :=
  h.elim IdleAlike.outside Twin.sameOutside

theorem Alike.external (h : Alike s t) : ∀ i ∈ s.inputs, i.external = true :=
  h.elim IdleAlike.external Twin.external

/-- Twins stay twins when both lose the same inputs, and whatever becomes of the answers to come. -/
theorem Twin.take (h : Twin s t) {inputs : List Input} (hi : ∀ i ∈ inputs, i.external = true)
    (answers : List TxAnswer → List TxAnswer) :
    Twin { s with inputs := inputs, txAnswers := answers s.txAnswers }
      { t with inputs := inputs, txAnswers := answers t.txAnswers } := by
  obtain ⟨⟨p, c, r, rfl⟩, hframe, hheld, _⟩ := h
  exact ⟨⟨p, c, r, rfl⟩, hframe, hheld, hi⟩

theorem Alike.take (h : Alike s t) {inputs : List Input} (hi : ∀ i ∈ inputs, i.external = true)
    (answers : List TxAnswer → List TxAnswer) :
    Alike { s with inputs := inputs, txAnswers := answers s.txAnswers }
      { t with inputs := inputs, txAnswers := answers t.txAnswers } := by
  rcases h with ⟨hidle, hb, hout, -⟩ | h
  · obtain ⟨hstate, hresult, hblocked, hrun, hsource, -, hanswers, hout⟩ := hout
    exact .inl ⟨hidle, hb, ⟨hstate, hresult, hblocked, hrun, hsource, rfl, congrArg answers hanswers, hout⟩, hi⟩
  · exact .inr (h.take hi answers)

/-- R230: reset forgets every register, so it makes twins of any two states that agree outside. -/
theorem SameOutside.hardReset (h : SameOutside s t) (hi : ∀ i ∈ s.inputs, i.external = true) :
    Twin s.hardReset t.hardReset := by
  obtain ⟨-, -, -, hrun, hsource, hinputs, hanswers, hout⟩ := h
  refine ⟨⟨[], 0, 0, ?_⟩, fun hs => (nomatch hs), fun w hw => (nomatch hw), hi⟩
  simp only [State.hardReset, hrun, hsource, hinputs, hanswers, hout]
  rfl

theorem busy_of_reading {e : EngineState} (h : e.reading = true) : e.busy = true := by
  revert h; cases e <;> decide

theorem Alike.twin_of_busy (h : Alike s t) (hb : s.state.busy = true) : Twin s t :=
  h.resolve_left fun hidle => by
    have hs := hidle.idle
    rw [not_idleLike_of_busy hb] at hs
    cases hs

/-! ## Operations on twins -/

/-- An update that neither sees nor writes PBUF and the CRC registers, and keeps what is blocked and to come, keeps
twins, unless it begins a block. -/
theorem Twin.map (h : Twin s t) (f : State → State)
    (hf : ∀ p c r, f { s with pbuf := p, blockCrc := c, crcR := r } = { f s with pbuf := p, blockCrc := c, crcR := r })
    (hstate : (f s).state = s.state ∨ (f s).state ≠ .sendingBlock) (hblocked : (f s).blockedWrite = s.blockedWrite)
    (hinputs : (f s).inputs = s.inputs) : Twin (f s) (f t) := by
  obtain ⟨⟨p, c, r, rfl⟩, hframe, hheld, hext⟩ := h
  have hs : f s = { f s with pbuf := s.pbuf, blockCrc := s.blockCrc, crcR := s.crcR } := hf _ _ _
  have ht := hf p c r
  refine ⟨⟨p, c, r, ht⟩, fun hsending => ?_, hblocked ▸ hheld, hinputs ▸ hext⟩
  obtain ⟨hp, hc⟩ := hframe ((hstate.resolve_right (not_not_intro hsending)) ▸ hsending)
  have hkept : (f s).pbuf = s.pbuf ∧ (f s).blockCrc = s.blockCrc := ⟨by rw [hs], by rw [hs]⟩
  rw [ht]
  exact ⟨(payload_congr hkept.1).trans hp, hkept.2.trans hc⟩

theorem Twin.answerWrite (h : Twin s t) (hb : s.blockedWrite = none) (a : TxAnswer) (bs : List Byte) :
    (answerWrite a bs s).Twins (answerWrite a bs t) := by
  obtain ⟨⟨p, c, r, rfl⟩, hframe, hheld, hext⟩ := h
  cases a with
  | ok => exact .go ⟨⟨p, c, r, rfl⟩, hframe, hheld, hext⟩ hb
  | txfail k => exact .ended ⟨⟨p, c, r, rfl⟩, fun hs => (nomatch hs), hheld, hext⟩
  | cutByReset k => exact .ended ⟨⟨[], 0, 0, rfl⟩, fun hs => (nomatch hs), fun w hw => (nomatch hw), hext⟩
  | pending =>
    refine .waiting ⟨⟨p, c, r, rfl⟩, hframe, fun w hw => ?_, hext⟩
    cases hw
    exact fun q hq => nomatch hq

theorem Twin.txWrite (h : Twin s t) (hb : s.blockedWrite = none) (bs : List Byte) :
    (txWrite bs s).Twins (txWrite bs t) := by
  have hanswer : t.nextAnswer = s.nextAnswer := by
    obtain ⟨p, c, r, rfl⟩ := h.registers
    rfl
  have hpop : Twin s.popAnswer t.popAnswer := h.map _ (fun _ _ _ => rfl) (.inl rfl) rfl rfl
  rw [Machine.txWrite, Machine.txWrite, hanswer]
  exact hpop.answerWrite hb _ bs

theorem Twin.sendFrame (h : Twin s t) (hb : s.blockedWrite = none) (hf : SameFrame s t) :
    (sendFrame s).Twins (sendFrame t) := by
  obtain ⟨hpayload, hcrc⟩ := hf
  have hnumber : t.blockNumber = s.blockNumber := by
    obtain ⟨p, c, r, rfl⟩ := h.registers
    rfl
  have hreport : Twin s.reportProgress t.reportProgress := h.map _ (fun _ _ _ => rfl) (.inl rfl) rfl rfl
  rcases sendFrame_cases s with ⟨hs, hsend⟩ | ⟨bs, hs, hsend⟩ <;>
    rcases sendFrame_cases t with ⟨ht, hsend'⟩ | ⟨bs', ht, hsend'⟩ <;>
    rw [hsend, hsend'] <;> rw [hpayload, ht] at hs <;> cases hs
  · exact .stuck _
  · rw [hnumber, hcrc]
    exact hreport.txWrite hb _

theorem Twin.sendRun (h : Twin s t) (hb : s.blockedWrite = none) : (sendRun s).Twins (sendRun t) := by
  have hunit : t.runFlag = s.runFlag ∧ t.runByte = s.runByte := by
    obtain ⟨p, c, r, rfl⟩ := h.registers
    exact ⟨rfl, rfl⟩
  rw [sendRun_eq, sendRun_eq, hunit.1, hunit.2]
  split
  · exact h.txWrite hb _
  · exact .go h hb

theorem Twin.enterDone (h : Twin s t) (hb : s.blockedWrite = none) :
    (RowPart.enterDone.run s).Twins (RowPart.enterDone.run t) :=
  .go (h.map State.enterDone (fun _ _ _ => rfl) (.inr (by simp)) rfl rfl) hb

/-- The parts of a termination keep twins. -/
theorem Flow.Twins.andThen {f g : Flow} {p : RowPart} (h : f.Twins g) (hp : p = .sendRun ∨ p = .enterDone) :
    (f.andThen p).Twins (g.andThen p) := by
  cases h with
  | go htwin hb =>
    rcases hp with rfl | rfl
    · exact htwin.sendRun hb
    · exact htwin.enterDone hb
  | ended htwin => exact .ended htwin
  | waiting htwin =>
    obtain ⟨⟨q, c, r, rfl⟩, hframe, hheld, hext⟩ := htwin
    refine .waiting ⟨⟨q, c, r, rfl⟩, hframe, fun w hw => ?_, hext⟩
    rw [State.postpone_blockedWrite] at hw
    obtain ⟨v, hv, rfl⟩ := Option.map_eq_some_iff.mp hw
    intro part hpart
    rcases List.mem_append.mp hpart with hold | hnew
    · exact hheld v hv part hold
    · rw [List.mem_singleton.mp hnew]; exact hp
  | stuck f => exact .stuck f

theorem Flow.Twins.foldl_andThen {l : List RowPart} (hl : ∀ p ∈ l, p = .sendRun ∨ p = .enterDone) {f g : Flow}
    (h : f.Twins g) : (l.foldl Flow.andThen f).Twins (l.foldl Flow.andThen g) := by
  induction l generalizing f g with
  | nil => exact h
  | cons p l ih =>
    exact ih (fun q hq => hl q (List.mem_cons_of_mem p hq)) (h.andThen (hl p List.mem_cons_self))

theorem Flow.Twins.outcome {f g : Flow} (h : f.Twins g) : OutcomesAlike f.outcome g.outcome := by
  cases h with
  | go h _ => exact .next (.inr h)
  | ended h => exact .next (.inr h)
  | waiting h => exact .next (.inr h)
  | stuck f => exact .fault f

theorem Twin.resumeWrite (h : Twin s t) {w : BlockedWrite} (hw : s.blockedWrite = some w) (a : TxAnswer) :
    (resumeWrite w a s).Twins (resumeWrite w a t) := by
  have hfree : Twin { s with blockedWrite := none } { t with blockedWrite := none } := by
    obtain ⟨⟨p, c, r, rfl⟩, hframe, -, hext⟩ := h
    exact ⟨⟨p, c, r, rfl⟩, hframe, fun w hw => (nomatch hw), hext⟩
  exact (hfree.answerWrite rfl a w.bytes).foldl_andThen (h.held w hw)

theorem Twin.enterTermination (h : Twin s t) (hb : s.blockedWrite = none) :
    (enterTermination s).Twins (enterTermination t) := by
  have hack : Twin s.enterTerminationAck t.enterTerminationAck :=
    h.map _ (fun _ _ _ => rfl) (.inr (by simp)) rfl rfl
  exact ((hack.txWrite hb _).andThen (.inl rfl)).andThen (.inr rfl)

/-- R170, R171: a block load goes on, and gives PBUF and both CRC registers values that do not depend on what they
held. -/
theorem loadBlock_payload (s : State) :
    ∃ pbuf, loadBlock s = .go { s with
        chunkLen := chunkLength s.fileSize s.srcPos
        pbuf := pbuf
        crcR := computeCRC16 (blockPayload s.source s.fileSize.toNat s.srcPos.toNat)
        blockCrc := computeCRC16 (blockPayload s.source s.fileSize.toNat s.srcPos.toNat) } ∧
      ∀ u : State, u.pbuf = pbuf → payload u = some (blockPayload s.source s.fileSize.toNat s.srcPos.toNat) := by
  refine ⟨_, loadBlock_eq s, fun u hu => ?_⟩
  rw [payload_eq, hu]
  exact mapM_read_filledPbuf _ _ _ _

theorem Twin.loadBlock (h : Twin s t) (hb : s.blockedWrite = none) :
    ∃ u v, loadBlock s = .go u ∧ loadBlock t = .go v ∧ u.blockedWrite = none ∧ Twin u v ∧ SameFrame u v := by
  obtain ⟨⟨p, c, r, rfl⟩, -, hheld, hext⟩ := h
  obtain ⟨q, hu, hq⟩ := loadBlock_payload s
  obtain ⟨q', hv, hq'⟩ := loadBlock_payload { s with pbuf := p, blockCrc := c, crcR := r }
  have hsame (x y : State) (hx : x.pbuf = q) (hy : y.pbuf = q') : payload x = payload y :=
    (hq x hx).trans (hq' y hy).symm
  exact ⟨_, _, hu, hv, hb, ⟨⟨q', _, _, rfl⟩, fun _ => ⟨hsame _ _ rfl rfl, rfl⟩, hheld, hext⟩, hsame _ _ rfl rfl, rfl⟩

theorem Twin.enterSending (h : Twin s t) (hf : SameFrame s t) : Twin s.enterSending t.enterSending := by
  obtain ⟨⟨p, c, r, rfl⟩, -, hheld, hext⟩ := h
  exact ⟨⟨p, c, r, rfl⟩, fun _ => hf, hheld, hext⟩

end

/-! ## Instructions on states alike -/

section
variable {s t : State}

/-- R135: the handshake reads `fileSize` and loads a block before it builds a frame. -/
theorem Twin.beginTransfer (h : Twin s t) (hb : s.blockedWrite = none) :
    (beginTransfer s).Twins (beginTransfer t) := by
  have hsize : t.fileSize = s.fileSize := by
    obtain ⟨p, c, r, rfl⟩ := h.registers
    rfl
  have hrewind (b : Bool) : Twin (s.rewind.setEof b) (t.rewind.setEof b) :=
    h.map (fun u => u.rewind.setEof b) (fun _ _ _ => rfl) (.inl rfl) rfl rfl
  rw [Machine.beginTransfer, Machine.beginTransfer, hsize]
  split
  · exact (hrewind true).enterTermination hb
  · obtain ⟨u, v, hu, hv, hub, htwin, hf⟩ := (hrewind false).loadBlock hb
    rw [hu, hv]
    exact (htwin.enterSending hf).sendFrame hub hf

/-- R138: so does an ACK. -/
theorem Twin.acknowledgeBlock (h : Twin s t) (hb : s.blockedWrite = none) :
    (acknowledgeBlock s).Twins (acknowledgeBlock t) := by
  have hexhausted : t.advanceBlock.sourceExhausted = s.advanceBlock.sourceExhausted := by
    obtain ⟨p, c, r, rfl⟩ := h.registers
    rfl
  have hadvance : Twin s.advanceBlock t.advanceBlock := h.map _ (fun _ _ _ => rfl) (.inl rfl) rfl rfl
  have heof : Twin (s.advanceBlock.setEof true) (t.advanceBlock.setEof true) :=
    hadvance.map _ (fun _ _ _ => rfl) (.inl rfl) rfl rfl
  rw [Machine.acknowledgeBlock, Machine.acknowledgeBlock, hexhausted]
  split
  · exact heof.enterTermination hb
  · obtain ⟨u, v, hu, hv, hub, htwin, hf⟩ := hadvance.loadBlock hb
    rw [hu, hv]
    exact htwin.sendFrame hub hf

/-- R139: a NAK sends what the block load left. -/
theorem Twin.retryBlock (h : Twin s t) (hb : s.blockedWrite = none) (hs : s.state = .sendingBlock) :
    (retryBlock s).Twins (retryBlock t) := by
  have hbudget : t.maxRetryL = s.maxRetryL ∧ t.currentTry = s.currentTry := by
    obtain ⟨p, c, r, rfl⟩ := h.registers
    exact ⟨rfl, rfl⟩
  have hretry : Twin s.countRetry t.countRetry := h.map _ (fun _ _ _ => rfl) (.inl rfl) rfl rfl
  rw [Machine.retryBlock, Machine.retryBlock, hbudget.1, hbudget.2]
  split
  · exact .ended (h.map (State.enterFailed _) (fun _ _ _ => rfl) (.inr (by simp)) rfl rfl)
  · exact hretry.sendFrame hb (h.frame hs)

/-! ### The instruction of a received answer -/

theorem exec_rxHandshake (s : State) :
    exec .rxHandshake s = if s.state = .awaitingStart then (beginTransfer s).outcome else .next s := by
  change execRxHandshake s = _
  unfold execRxHandshake
  cases s.state <;> rfl

theorem exec_rxAck (s : State) :
    exec .rxAck s = if s.state = .sendingBlock then (acknowledgeBlock s).outcome else .next s := by
  change execRxAck s = _
  unfold execRxAck
  cases s.state <;> rfl

theorem exec_rxNak (s : State) :
    exec .rxNak s = if s.state = .sendingBlock then (retryBlock s).outcome else .next s := by
  change execRxNak s = _
  unfold execRxNak
  cases s.state <;> rfl

theorem exec_rxCan (s : State) :
    exec .rxCan s = if s.state.reading then .next s.enterCancelled else .next s := rfl

theorem exec_rxFail (s : State) :
    exec .rxFail s = if s.state.reading then .next (s.enterFailed .transportFailure) else .next s := rfl


/-- R44, R81: the instruction of an answer to a read. -/
def RxAnswer.instr : RxAnswer → Instr
  | .byte b => decodeRx b
  | .rxfail => .rxFail

theorem decode_coded (runByte : Byte) (a : RxAnswer) : decode runByte a.coded = .ok a.instr := by
  cases a <;> rfl

theorem Twin.exec_received (h : Twin s t) (hb : s.blockedWrite = none) (a : RxAnswer) :
    OutcomesAlike (exec a.instr s) (exec a.instr t) := by
  have hstate : t.state = s.state := h.sameOutside.1.symm
  have hcancel : Twin s.enterCancelled t.enterCancelled := h.map _ (fun _ _ _ => rfl) (.inr (by simp)) rfl rfl
  have hfail : Twin (s.enterFailed .transportFailure) (t.enterFailed .transportFailure) :=
    h.map (State.enterFailed _) (fun _ _ _ => rfl) (.inr (by simp)) rfl rfl
  cases a with
  | byte b =>
    rw [RxAnswer.instr]
    rcases decodeRx_cases b with hi | hi | hi | hi | hi <;> rw [hi]
    · rw [exec_rxHandshake, exec_rxHandshake, hstate]
      split
      · exact (h.beginTransfer hb).outcome
      · exact .next (.inr h)
    · rw [exec_rxAck, exec_rxAck, hstate]
      split
      · exact (h.acknowledgeBlock hb).outcome
      · exact .next (.inr h)
    · rw [exec_rxNak, exec_rxNak, hstate]
      split
      case isTrue hs => exact (h.retryBlock hb hs).outcome
      case isFalse => exact .next (.inr h)
    · rw [exec_rxCan, exec_rxCan, hstate]
      split
      · exact .next (.inr hcancel)
      · exact .next (.inr h)
    · exact .next (.inr h)
  | rxfail =>
    rw [RxAnswer.instr, exec_rxFail, exec_rxFail, hstate]
    split
    · exact .next (.inr hfail)
    · exact .next (.inr h)

/-! ### The instruction of a host word -/

/-- R131: START writes every session register, so it makes twins of any two idle-like states that agree outside. -/
theorem SameOutside.startSession (h : SameOutside s t) (hb : s.blockedWrite = none)
    (hext : ∀ i ∈ s.inputs, i.external = true) (run : Bool) (maxRetry : Byte) (size : Word32) :
    Twin (s.startSession run maxRetry size) (t.startSession run maxRetry size) := by
  obtain ⟨-, -, hblocked, hrun, hsource, hinputs, hanswers, hout⟩ := h
  refine ⟨⟨t.pbuf, t.blockCrc, t.crcR, ?_⟩, fun hs => (nomatch hs), fun w hw => (nomatch hb.symm.trans hw), hext⟩
  simp only [State.startSession, hblocked, hrun, hsource, hinputs, hanswers, hout]

theorem SameOutside.exec_hostStart (h : SameOutside s t) (hfree : s.state.busy = true ∨ s.blockedWrite = none)
    (hext : ∀ i ∈ s.inputs, i.external = true) (status : SrcStatus) (run : Bool) (maxRetry : Byte) (size : Word32) :
    OutcomesAlike (exec (.hostStart status run maxRetry size) s) (exec (.hostStart status run maxRetry size) t) := by
  change OutcomesAlike (execHostStart status run maxRetry size s) (execHostStart status run maxRetry size t)
  have ⟨hstate, _, hblocked, hrun, hsource, hinputs, hanswers, hout⟩ := h
  unfold execHostStart
  rw [← hstate]
  split
  case isFalse => exact .refused _
  case isTrue hidle =>
    have hb : s.blockedWrite = none := hfree.resolve_left fun hbusy => by
      rw [not_idleLike_of_busy hbusy] at hidle; cases hidle
    cases status with
    | ok => exact .next (.inr (h.startSession hb hext run maxRetry size))
    | notFound => exact .next (.inl ⟨rfl, hb, ⟨rfl, rfl, hblocked, hrun, hsource, hinputs, hanswers, hout⟩, hext⟩)
    | openFailed => exact .next (.inl ⟨rfl, hb, ⟨rfl, rfl, hblocked, hrun, hsource, hinputs, hanswers, hout⟩, hext⟩)

theorem SameOutside.exec_decodeHost (h : SameOutside s t) (hfree : s.state.busy = true ∨ s.blockedWrite = none)
    (hext : ∀ i ∈ s.inputs, i.external = true) (w : HostWord) :
    OutcomesAlike (exec (decodeHost w) s) (exec (decodeHost w) t) := by
  rcases decodeHost_cases w with ⟨status, run, maxRetry, size, hw⟩ | ⟨run, maxRetry, size, hw⟩ <;> rw [hw]
  · exact h.exec_hostStart hfree hext status run maxRetry size
  · exact .refused _

/-! ## Steps and runs -/

/-- What the engine can take is seen outside. -/
theorem SameOutside.takeInput (h : SameOutside s t) :
    takeInput t.accepts t.inputs = takeInput s.accepts s.inputs := by
  obtain ⟨hstate, -, hblocked, -, -, hinputs, -⟩ := h
  have haccepts : t.accepts = s.accepts := by
    funext i
    cases i <;> simp only [State.accepts, hstate, hblocked]
  rw [haccepts, hinputs]

/-- Every step of states alike has the same outcome outside. -/
theorem Alike.step (h : Alike s t) : OutcomesAlike (step s) (step t) := by
  have hout := h.sameOutside
  have hsame := hout.takeInput
  obtain ⟨hstate, hresult, hblocked, hrun, hsource, hinputs, hanswers, houtputs⟩ := hout
  cases htake : takeInput s.accepts s.inputs with
  | none =>
    rw [step_of_nothing htake, step_of_nothing (hsame.trans htake)]
    exact .next h
  | some q =>
    obtain ⟨i, rest⟩ := q
    have htake' := hsame.trans htake
    obtain ⟨hacc, hi, hrest⟩ := takeInput_mem htake
    have hext : ∀ j ∈ rest, j.external = true := fun j hj => h.external j (hrest j hj)
    have htaken : Alike { s with inputs := rest } { t with inputs := rest } := h.take hext id
    cases i with
    | rx a =>
      simp only [State.accepts, Bool.and_eq_true, Option.isNone_iff_eq_none] at hacc
      obtain ⟨hreading, hb⟩ := hacc
      rw [step_of_rx htake (decode_coded _ a), step_of_rx htake' (decode_coded _ a)]
      exact (htaken.twin_of_busy (busy_of_reading hreading)).exec_received hb a
    | tx a =>
      cases hb : s.blockedWrite with
      | none =>
        rw [step_of_early_answer htake hb, step_of_early_answer htake' (hblocked ▸ hb)]
        exact .next (h.take hext (· ++ [a]))
      | some w =>
        rw [step_of_taken_answer htake hb, step_of_taken_answer htake' (hblocked ▸ hb)]
        have htwin : Twin { s with inputs := rest } { t with inputs := rest } :=
          htaken.resolve_left fun hidle => nomatch hidle.unblocked.symm.trans hb
        exact (htwin.resumeWrite hb a).outcome
    | host w m =>
      simp only [State.accepts, Bool.or_eq_true, Option.isNone_iff_eq_none] at hacc
      rw [step_of_host htake, step_of_host htake']
      have hpresented : SameOutside { s with inputs := rest, source := m } { t with inputs := rest, source := m } :=
        ⟨hstate, hresult, hblocked, hrun, rfl, rfl, hanswers, houtputs⟩
      exact hpresented.exec_decodeHost hacc hext w
    | reset =>
      rw [step_of_reset htake, step_of_reset htake']
      exact .next (.inr (htaken.sameOutside.hardReset hext))
    | breach b =>
      cases hb : s.state.busy with
      | true =>
        rw [step_of_breach_busy htake hb, step_of_breach_busy htake' (hstate ▸ hb)]
        exact .refused _
      | false =>
        rw [step_of_breach_idle htake hb, step_of_breach_idle htake' (hstate ▸ hb)]
        exact .next htaken
    | crcOp w => cases h.external _ hi
    | txUnit b => cases h.external _ hi

/-- A run of states alike, by induction on its length. -/
theorem Alike.run (n : Nat) {s t : State} (h : Alike s t) :
    SameRun (Host.Core.run Sys2Proof.core n s) (Host.Core.run Sys2Proof.core n t) := by
  induction n generalizing s t with
  | zero => exact h.sameOutside
  | succ n ih =>
    generalize hs : Machine.step s = o, ht : Machine.step t = o'
    have hstep := h.step
    rw [hs, ht] at hstep
    cases hstep with
    | next h => rw [run_succ_of_next n hs, run_succ_of_next n ht]; exact ih h
    | fault f => rw [run_succ_of_fault n hs, run_succ_of_fault n ht]; rfl
    | refused r => rw [run_succ_of_refused n hs, run_succ_of_refused n ht]; rfl

end

/-- Settles O56: START makes twins of two idle-like states that agree outside, and every step keeps twins. -/
theorem earlierRegistersReachNothing : Obligations.EarlierRegistersReachNothing :=
  fun n _ _ hidle hb hout hext => Alike.run n (.inl ⟨hidle, hb, hout, hext⟩)

end Sys2Proof.Machine

/-! SUPPORT. The obligations of 10_state.md: what a write delivers (R29), and where AWAITING_TERMINATION_ACK is held
(R21). -/

namespace Sys2Proof.Machine

/-- What holds of every next state of a flow, is kept by each of the parts and does not see a wait, holds after them. -/
theorem foldl_andThen_preserves {P : State → Prop} {l : List RowPart} {f : Flow}
    (hrun : ∀ p ∈ l, ∀ u v, P u → (p.run u).outcome = .next v → P v) (hwait : ∀ p u, P u → P (u.postpone p))
    (hf : ∀ u, f.outcome = .next u → P u) : ∀ t, (l.foldl Flow.andThen f).outcome = .next t → P t := by
  induction l generalizing f with
  | nil => exact hf
  | cons p l ih =>
    exact ih (fun q hq => hrun q (List.mem_cons_of_mem p hq))
      (andThen_preserves (hrun p List.mem_cons_self) (hwait p) hf)

/-! ## What a write delivers -/

theorem txWrite_txfail (bs : List Byte) {s : State} {k : Nat} (h : s.nextAnswer = .txfail k) :
    txWrite bs s = .ended { s with
      state := .failed
      result := .transportFailure
      txAnswers := s.txAnswers.tail
      outputs := s.outputs ++ [.wire (strictPrefix k bs)] } := by
  rw [txWrite, h]; rfl

/-- The first bytes of a write, fewer than all of them, are what some failed write delivers. -/
theorem strictPrefix_length {d bs : List Byte} (h : d <+: bs) (hlt : d.length < bs.length) :
    strictPrefix d.length bs = d := by
  have hmin : min d.length (bs.length - 1) = d.length := by omega
  rw [strictPrefix, hmin]
  exact (List.prefix_iff_eq_take.mp h).symm

/-- Settles O40: a failed write delivers `strictPrefix k`, and `k` ranges over all shorter lengths. -/
theorem writeDelivery : Obligations.WriteDelivery := by
  intro bs s hne
  refine ⟨fun h => txWrite_ok bs h, fun k h => ?_, fun d hd hlt => ⟨d.length, fun u h => ?_⟩⟩
  · exact ⟨strictPrefix k bs, strictPrefix_isPrefix k bs, strictPrefix_length_lt k hne, txWrite_txfail bs h⟩
  · rw [txWrite_txfail bs h, strictPrefix_length hd hlt]

/-! ## AWAITING_TERMINATION_ACK -/

/-- R142: only `EnterTermination()` enters AWAITING_TERMINATION_ACK; a piece of a step that stops has left it, or waits
in a blocked write. -/
def Flow.LeavesAck : Flow → Prop
  | .go _ => True
  | .ended s => s.state ≠ .awaitingTerminationAck
  | .waiting s => s.blockedWrite ≠ none
  | .stuck _ => True

theorem answerWrite_leavesAck (a : TxAnswer) (bs : List Byte) (s : State) : (answerWrite a bs s).LeavesAck := by
  cases a with
  | ok => trivial
  | txfail k => exact fun h => nomatch h
  | cutByReset k => exact fun h => nomatch h
  | pending => exact fun h => nomatch h

theorem run_leavesAck (p : RowPart) (s : State) : (p.run s).LeavesAck := by
  cases p with
  | enterSending | enterDone => trivial
  | sendFrame =>
    rcases sendFrame_cases s with ⟨_, hs⟩ | ⟨bs, _, hs⟩ <;> rw [RowPart.run_sendFrame, hs]
    · trivial
    · exact answerWrite_leavesAck _ _ _
  | sendRun =>
    rw [RowPart.run_sendRun, sendRun_eq]
    split
    · exact answerWrite_leavesAck _ _ _
    · trivial

theorem Flow.LeavesAck.andThen {f : Flow} (h : f.LeavesAck) (p : RowPart) : (f.andThen p).LeavesAck := by
  cases f with
  | go s => exact run_leavesAck p s
  | ended s => exact h
  | waiting s => simpa [Flow.LeavesAck] using h
  | stuck e => trivial

theorem Flow.LeavesAck.foldl_andThen {f : Flow} (h : f.LeavesAck) (l : List RowPart) :
    (l.foldl Flow.andThen f).LeavesAck := by
  induction l generalizing f with
  | nil => exact h
  | cons p l ih => exact ih (h.andThen p)

/-- With DONE as its last part, a step holds AWAITING_TERMINATION_ACK only while that part is still to come. -/
theorem Flow.LeavesAck.enterDone_pending {f : Flow} {t : State} (hf : f.LeavesAck)
    (h : (f.andThen .enterDone).outcome = .next t) : TerminationPending t := by
  cases f with
  | go s => cases h; exact fun hs => nomatch hs
  | ended s => cases h; exact fun hs => absurd hs hf
  | waiting s =>
    cases h
    intro _
    obtain ⟨w, hw⟩ := Option.ne_none_iff_exists'.mp hf
    refine ⟨{ w with rest := w.rest ++ [.enterDone] }, ?_, by simp⟩
    rw [State.postpone_blockedWrite, hw, Option.map_some]
  | stuck e => cases h

theorem enterTermination_pending {s t : State} (h : (enterTermination s).outcome = .next t) : TerminationPending t :=
  ((answerWrite_leavesAck _ _ _).andThen _).enterDone_pending h

section
variable {s t : State} (hs : s.state ≠ .awaitingTerminationAck)
include hs

theorem answerWrite_outsideAck {a : TxAnswer} {bs : List Byte} (h : (answerWrite a bs s).outcome = .next t) :
    t.state ≠ .awaitingTerminationAck := by
  cases a <;> cases h
  case ok => exact hs
  case pending => exact hs
  all_goals exact fun h => nomatch h

theorem sendFrame_outsideAck (h : (sendFrame s).outcome = .next t) : t.state ≠ .awaitingTerminationAck := by
  rcases sendFrame_cases s with ⟨_, hf⟩ | ⟨bs, _, hf⟩ <;> rw [hf] at h
  · cases h
  · exact answerWrite_outsideAck (s := s.reportProgress.popAnswer) hs h

theorem sendRun_outsideAck (h : (sendRun s).outcome = .next t) : t.state ≠ .awaitingTerminationAck := by
  rw [sendRun_eq] at h
  split at h
  · exact answerWrite_outsideAck (s := s.popAnswer) hs h
  · cases h; exact hs

theorem run_outsideAck {p : RowPart} (h : (p.run s).outcome = .next t) : t.state ≠ .awaitingTerminationAck := by
  cases p with
  | enterSending | enterDone => cases h; exact fun h => nomatch h
  | sendFrame => exact sendFrame_outsideAck hs h
  | sendRun => exact sendRun_outsideAck hs h

/-- Outside AWAITING_TERMINATION_ACK every meaning stays outside, or begins a termination. -/
theorem exec_pending {i : Instr} (h : exec i s = .next t) : TerminationPending t := by
  have hpending {u : State} (hu : u.state ≠ .awaitingTerminationAck) : TerminationPending u := fun h => absurd h hu
  cases i with
  | rxHandshake =>
    rcases execRxHandshake_next h with ⟨_, rfl⟩ | ⟨_, _, h⟩ | ⟨_, _, h⟩
    · exact hpending hs
    · exact enterTermination_pending h
    · obtain ⟨c, p, r, hl⟩ := loadBlock_frame (s.rewind.setEof false)
      rw [hl] at h
      refine hpending (sendFrame_outsideAck ?_ h)
      exact fun h => nomatch h
  | rxAck =>
    rcases execRxAck_next h with ⟨_, rfl⟩ | ⟨_, _, h⟩ | ⟨_, _, h⟩
    · exact hpending hs
    · exact enterTermination_pending h
    · obtain ⟨c, p, r, hl⟩ := loadBlock_frame s.advanceBlock
      rw [hl] at h
      refine hpending (sendFrame_outsideAck ?_ h)
      exact hs
  | rxNak =>
    rcases execRxNak_next h with ⟨_, rfl⟩ | ⟨_, _, rfl⟩ | ⟨_, _, h⟩
    · exact hpending hs
    · exact hpending fun h => nomatch h
    · exact hpending (sendFrame_outsideAck (s := s.countRetry) hs h)
  | rxCan =>
    rcases execRxCan_next h with ⟨_, rfl⟩ | ⟨_, rfl⟩
    · exact hpending hs
    · exact hpending fun h => nomatch h
  | rxFail =>
    rcases execRxFail_next h with ⟨_, rfl⟩ | ⟨_, rfl⟩
    · exact hpending hs
    · exact hpending fun h => nomatch h
  | txFrame => exact hpending (sendFrame_outsideAck hs h)
  | txEot => exact hpending (answerWrite_outsideAck (s := s.popAnswer) hs h)
  | txRun => exact hpending (sendRun_outsideAck hs h)
  | hostStart status run maxRetry size =>
    obtain ⟨-, ⟨_, rfl⟩ | ⟨_, rfl⟩ | ⟨_, rfl⟩⟩ := execHostStart_next h <;> exact hpending fun h => nomatch h
  | hostStartRsv | crcRsv => cases h
  | rxOther | crcHold | crcClear | crcUpdate => cases h; exact hpending hs

end

/-- R214: the rest of a blocked step, with DONE as its last part where the state is AWAITING_TERMINATION_ACK. -/
theorem resumeWrite_pending {w : BlockedWrite} {a : TxAnswer} {s t : State}
    (hw : s.state = .awaitingTerminationAck → w.rest.getLast? = some .enterDone)
    (h : (resumeWrite w a s).outcome = .next t) : TerminationPending t := by
  by_cases hs : s.state = .awaitingTerminationAck
  · obtain ⟨parts, hparts⟩ := List.getLast?_eq_some_iff.mp (hw hs)
    rw [resumeWrite, hparts, List.foldl_append] at h
    exact ((answerWrite_leavesAck a w.bytes _).foldl_andThen parts).enterDone_pending h
  · have hwrite : ∀ u, (answerWrite a w.bytes { s with blockedWrite := none }).outcome = .next u →
        u.state ≠ .awaitingTerminationAck :=
      fun _ hu => answerWrite_outsideAck (s := { s with blockedWrite := none }) hs hu
    have hstop := foldl_andThen_preserves (l := w.rest) (fun _ _ _ _ hu hv => run_outsideAck hu hv)
      (fun _ _ hu => hu) hwrite t h
    exact fun hack => absurd hack hstop

/-- Settles O49: only a termination enters AWAITING_TERMINATION_ACK, and DONE, its last part, leaves it. -/
theorem terminationAckNeverHeld : Obligations.TerminationAckNeverHeld := by
  intro s t hpend h
  have hfree (hb : s.blockedWrite = none) : s.state ≠ .awaitingTerminationAck := fun hs => by
    obtain ⟨w, hw, -⟩ := hpend hs
    cases hb.symm.trans hw
  have hpend' : TerminationPending t := by
    rcases step_next h with ⟨_, rfl⟩ | ⟨i, rest, _, ⟨a, _, _, hb, j, _, he⟩ | ⟨a, _, _, rfl⟩ | ⟨a, w, _, hw, he⟩ |
      ⟨w, m, _, _, he⟩ | ⟨_, rfl⟩ | ⟨b, _, _, rfl⟩ | ⟨w, _, hb, he⟩ | ⟨b, _, hb, j, _, he⟩⟩
    · exact hpend
    · exact exec_pending (s := { s with inputs := rest }) (hfree hb) he
    · exact hpend
    · refine resumeWrite_pending (s := { s with inputs := rest }) (fun hs => ?_) he
      obtain ⟨w', hw', hlast⟩ := hpend hs
      cases hw.symm.trans hw'
      exact hlast
    · have hidle : s.state.idleLike = true := (execDecodeHost_next he).1
      have hs : s.state ≠ .awaitingTerminationAck := fun hs => by rw [hs] at hidle; cases hidle
      exact exec_pending (s := { s with inputs := rest, source := m }) hs he
    · exact fun hs => nomatch hs
    · exact hpend
    · exact exec_pending (s := { s with inputs := rest }) (hfree hb) he
    · exact exec_pending (s := { s with inputs := rest }) (hfree hb) he
  refine ⟨hpend', fun hb hs => ?_⟩
  obtain ⟨w, hw, -⟩ := hpend' hs
  cases hb.symm.trans hw

end Sys2Proof.Machine

/-! SUPPORT. The obligations of 10_state.md: when the CRC registers move (R42, R116), and the complement of a frame's
number (R25). -/

namespace Sys2Proof.Machine

/-! ## The loaded block -/

/-- R29, R94: from `s` to `t` the queue loses answers that are all `ok`. -/
def OkTaken (s t : State) : Prop :=
  ∃ n, (s.txAnswers.take n).all (fun b => b == .ok) = true ∧ t.txAnswers = s.txAnswers.drop n

theorem OkTaken.refl {s t : State} (h : t.txAnswers = s.txAnswers) : OkTaken s t :=
  ⟨0, rfl, h⟩

theorem all_take_add {p : TxAnswer → Bool} {l : List TxAnswer} {m n : Nat} (hm : (l.take m).all p = true)
    (hn : ((l.drop m).take n).all p = true) : (l.take (m + n)).all p = true := by
  rw [List.take_add, List.all_append, hm, hn]
  rfl

theorem OkTaken.trans {s t u : State} (h : OkTaken s t) (h' : OkTaken t u) : OkTaken s u := by
  obtain ⟨m, hm, ht⟩ := h
  obtain ⟨n, hn, hu⟩ := h'
  rw [ht] at hn hu
  exact ⟨m + n, all_take_add hm hn, by rw [hu, List.drop_drop]⟩

theorem OkTaken.queueUsed {s t u : State} {a : TxAnswer} (h : OkTaken s t) (h' : QueueUsed a t u) :
    QueueUsed a s u := by
  obtain ⟨m, hm, ht⟩ := h
  obtain ⟨n, hn, ha, hu⟩ := h'
  rw [ht] at hn ha hu
  rw [List.getElem?_drop] at ha
  exact ⟨m + n, all_take_add hm hn, ha, by rw [hu, List.drop_drop, Nat.add_assoc]⟩

/-- From `s` to `t`, the block that is loaded stays: its payload, CRC and offset. No input is taken. -/
structure KeepsBlock (s t : State) : Prop where
  crcR : t.crcR = s.crcR
  blockCrc : t.blockCrc = s.blockCrc
  pbuf : t.pbuf = s.pbuf
  srcPos : t.srcPos = s.srcPos
  inputs : t.inputs = s.inputs

/-- R231: from `s` to `t`, reset cuts a write whose answer stands in the queue. -/
structure CutFromQueue (s t : State) : Prop where
  answer : ∃ k, QueueUsed (.cutByReset k) s t
  crcR : t.crcR = 0x0000
  state : t.state = .idle
  inputs : t.inputs = s.inputs

/-- A piece of a step from `s` on that keeps the loaded block as long as its writes are answered `ok`, and ends with it
kept or with a write cut. -/
def Flow.SendsBlock (s : State) : Flow → Prop
  | .go t => KeepsBlock s t ∧ OkTaken s t
  | .ended t => KeepsBlock s t ∨ CutFromQueue s t
  | .waiting t => KeepsBlock s t
  | .stuck _ => True

section
variable {s t u : State} {f : Flow}

theorem KeepsBlock.refl (s : State) : KeepsBlock s s := ⟨rfl, rfl, rfl, rfl, rfl⟩

theorem KeepsBlock.trans (h : KeepsBlock s t) (h' : KeepsBlock t u) : KeepsBlock s u :=
  ⟨h'.crcR.trans h.crcR, h'.blockCrc.trans h.blockCrc, h'.pbuf.trans h.pbuf, h'.srcPos.trans h.srcPos,
    h'.inputs.trans h.inputs⟩

theorem CutFromQueue.of_okTaken (h : CutFromQueue t u) (ho : OkTaken s t) (hi : t.inputs = s.inputs) :
    CutFromQueue s u := by
  obtain ⟨k, hq⟩ := h.answer
  exact ⟨⟨k, ho.queueUsed hq⟩, h.crcR, h.state, h.inputs.trans hi⟩

theorem Flow.SendsBlock.of_keeps (h : f.SendsBlock t) (hk : KeepsBlock s t) (ho : OkTaken s t) : f.SendsBlock s := by
  cases f with
  | go u => exact ⟨hk.trans h.1, ho.trans h.2⟩
  | ended u => exact h.imp hk.trans fun hcut => hcut.of_okTaken ho hk.inputs
  | waiting u => exact hk.trans h
  | stuck e => trivial

theorem Flow.SendsBlock.outcome (h : f.SendsBlock s) (hn : f.outcome = .next t) :
    KeepsBlock s t ∨ CutFromQueue s t := by
  rcases Flow.outcome_next hn with rfl | rfl | rfl
  · exact .inl h.1
  · exact h
  · exact .inl h

theorem txWrite_sendsBlock (bs : List Byte) (s : State) : (txWrite bs s).SendsBlock s := by
  rcases txWrite_cases bs s with ⟨ha, hw⟩ | ⟨k, _, hw⟩ | ⟨k, ha, hw⟩ | ⟨_, hw⟩ <;> rw [hw]
  · refine ⟨⟨rfl, rfl, rfl, rfl, rfl⟩, 1, ?_, List.drop_one.symm⟩
    rw [State.nextAnswer] at ha
    cases hq : s.txAnswers with
    | nil => rfl
    | cons a l =>
      rw [hq] at ha
      simpa using ha
  · exact .inl ⟨rfl, rfl, rfl, rfl, rfl⟩
  · exact .inr ⟨⟨k, 0, rfl, nextAnswer_head ha (by simp), List.drop_one.symm⟩, rfl, rfl, rfl⟩
  · exact ⟨rfl, rfl, rfl, rfl, rfl⟩

theorem sendFrame_sendsBlock (s : State) : (sendFrame s).SendsBlock s := by
  rcases sendFrame_cases s with ⟨_, hs⟩ | ⟨bs, _, hs⟩ <;> rw [hs]
  · trivial
  · exact (txWrite_sendsBlock _ s.reportProgress).of_keeps ⟨rfl, rfl, rfl, rfl, rfl⟩ (.refl rfl)

theorem run_sendsBlock (p : RowPart) (s : State) : (p.run s).SendsBlock s := by
  cases p with
  | enterSending | enterDone => exact ⟨⟨rfl, rfl, rfl, rfl, rfl⟩, .refl rfl⟩
  | sendFrame => exact sendFrame_sendsBlock s
  | sendRun =>
    rw [RowPart.run_sendRun, sendRun_eq]
    split
    · exact txWrite_sendsBlock _ s
    · exact ⟨.refl s, .refl rfl⟩

theorem Flow.SendsBlock.andThen (h : f.SendsBlock s) (p : RowPart) : (f.andThen p).SendsBlock s := by
  cases f with
  | go u => exact (run_sendsBlock p u).of_keeps h.1 h.2
  | ended u => exact h
  | waiting u => exact h.trans ⟨rfl, rfl, rfl, rfl, rfl⟩
  | stuck e => trivial

theorem Flow.SendsBlock.foldl_andThen (h : f.SendsBlock s) (l : List RowPart) :
    (l.foldl Flow.andThen f).SendsBlock s := by
  induction l generalizing f with
  | nil => exact h
  | cons p l ih => exact ih (h.andThen p)

theorem enterTermination_sendsBlock (s : State) : (enterTermination s).SendsBlock s :=
  (((txWrite_sendsBlock _ s.enterTerminationAck).of_keeps (s := s) ⟨rfl, rfl, rfl, rfl, rfl⟩ (.refl rfl)).andThen
    _).andThen _

/-! ## The CRC registers -/

/-- R170, R171: PBUF and both CRC registers are those of the block at `srcPos`, which lies inside the file. -/
def HoldsBlock (source : Memory) (fileSize : Word32) (t : State) : Prop :=
  t.srcPos.toNat < fileSize.toNat ∧
    ∃ bytes, bytes = blockPayload source fileSize.toNat t.srcPos.toNat ∧ payload t = some bytes ∧
      t.crcR = computeCRC16 bytes ∧ t.blockCrc = computeCRC16 bytes

theorem HoldsBlock.of_keeps {source : Memory} {fileSize : Word32} (h : HoldsBlock source fileSize t)
    (hk : KeepsBlock t u) : HoldsBlock source fileSize u := by
  obtain ⟨hin, bytes, hbytes, hp, hr, hc⟩ := h
  rw [← hk.srcPos] at hin hbytes
  exact ⟨hin, bytes, hbytes, (payload_congr hk.pbuf).trans hp, hk.crcR.trans hr, hk.blockCrc.trans hc⟩

/-- R170, R171: what a block load leaves. -/
theorem loadBlock_holdsBlock (hin : s.srcPos.toNat < s.fileSize.toNat) :
    ∃ u, loadBlock s = .go u ∧ HoldsBlock s.source s.fileSize u ∧ u.inputs = s.inputs ∧ u.txAnswers = s.txAnswers := by
  obtain ⟨pbuf, hload, hp⟩ := loadBlock_payload s
  exact ⟨_, hload, ⟨hin, _, rfl, hp _ rfl, rfl, rfl⟩, rfl, rfl⟩

/-- What an instruction can do to the CRC registers; `loads` says that it loads a block. -/
def MovesCrc (loads : Prop) (s t : State) : Prop :=
  t.inputs = s.inputs ∧
    (t.crcR = s.crcR ∧ t.blockCrc = s.blockCrc ∨ loads ∧ HoldsBlock s.source s.fileSize t ∨ CutFromQueue s t)

theorem MovesCrc.of_sendsBlock {loads : Prop} (h : f.SendsBlock u) (hn : f.outcome = .next t)
    (hu : u.crcR = s.crcR ∧ u.blockCrc = s.blockCrc ∧ u.inputs = s.inputs ∧ u.txAnswers = s.txAnswers) :
    MovesCrc loads s t := by
  obtain ⟨hr, hc, hi, ha⟩ := hu
  rcases h.outcome hn with hk | hcut
  · exact ⟨hk.inputs.trans hi, .inl ⟨hk.crcR.trans hr, hk.blockCrc.trans hc⟩⟩
  · exact ⟨hcut.inputs.trans hi, .inr (.inr (hcut.of_okTaken (.refl ha) hi))⟩

theorem MovesCrc.of_loaded (h : f.SendsBlock u) (hn : f.outcome = .next t) (hu : HoldsBlock s.source s.fileSize u)
    (hi : u.inputs = s.inputs) (ha : u.txAnswers = s.txAnswers) {loads : Prop} (hl : loads) : MovesCrc loads s t := by
  rcases h.outcome hn with hk | hcut
  · exact ⟨hk.inputs.trans hi, .inr (.inl ⟨hl, hu.of_keeps hk⟩)⟩
  · exact ⟨hcut.inputs.trans hi, .inr (.inr (hcut.of_okTaken (.refl ha) hi))⟩

theorem execRxHandshake_movesCrc (h : exec .rxHandshake s = .next t) : MovesCrc (s.state = .awaitingStart) s t := by
  rcases execRxHandshake_next h with ⟨_, rfl⟩ | ⟨_, _, h⟩ | ⟨hs, hz, h⟩
  · exact ⟨rfl, .inl ⟨rfl, rfl⟩⟩
  · exact .of_sendsBlock (enterTermination_sendsBlock _) h ⟨rfl, rfl, rfl, rfl⟩
  · have hin : 0 < s.fileSize.toNat := Nat.pos_of_ne_zero fun h => hz (BitVec.eq_of_toNat_eq h)
    obtain ⟨u, hload, hu, hi, ha⟩ := loadBlock_holdsBlock (s := s.rewind.setEof false) hin
    rw [hload] at h
    exact .of_loaded (s := s) ((run_sendsBlock .enterSending u).andThen .sendFrame) h hu hi ha hs

theorem execRxAck_movesCrc (h : exec .rxAck s = .next t) : MovesCrc (s.state = .sendingBlock) s t := by
  rcases execRxAck_next h with ⟨_, rfl⟩ | ⟨_, _, h⟩ | ⟨hs, hin, h⟩
  · exact ⟨rfl, .inl ⟨rfl, rfl⟩⟩
  · exact .of_sendsBlock (enterTermination_sendsBlock _) h ⟨rfl, rfl, rfl, rfl⟩
  · obtain ⟨u, hload, hu, hi, ha⟩ := loadBlock_holdsBlock (s := s.advanceBlock) hin
    rw [hload] at h
    exact .of_loaded (s := s) (sendFrame_sendsBlock u) h hu hi ha hs

theorem execRxNak_movesCrc (h : exec .rxNak s = .next t) : MovesCrc False s t := by
  rcases execRxNak_next h with ⟨_, rfl⟩ | ⟨_, _, rfl⟩ | ⟨_, _, h⟩
  · exact ⟨rfl, .inl ⟨rfl, rfl⟩⟩
  · exact ⟨rfl, .inl ⟨rfl, rfl⟩⟩
  · exact .of_sendsBlock (sendFrame_sendsBlock s.countRetry) h ⟨rfl, rfl, rfl, rfl⟩

/-- R81: the bytes of the two rows that load a block. -/
theorem decodeRx_eq_rxHandshake {b : Byte} (h : decodeRx b = .rxHandshake) : b = Wire.handshake := by
  unfold decodeRx at h
  split_ifs at h
  assumption

theorem decodeRx_eq_rxAck {b : Byte} (h : decodeRx b = .rxAck) : b = Wire.ack := by
  unfold decodeRx at h
  split_ifs at h
  assumption

/-- R135, R138: of the answers to reads, a handshake and an ACK alone load a block. -/
theorem execReceived_movesCrc {a : RxAnswer} (h : exec a.instr s = .next t) :
    MovesCrc (s.state = .awaitingStart ∧ a = .byte 0x43 ∨ s.state = .sendingBlock ∧ a = .byte 0x06) s t := by
  have himp {p q : Prop} (hpq : p → q) (hm : MovesCrc p s t) : MovesCrc q s t :=
    ⟨hm.1, hm.2.imp_right (Or.imp_left (And.imp_left hpq))⟩
  cases a with
  | byte b =>
    rw [RxAnswer.instr] at h
    rcases decodeRx_cases b with hi | hi | hi | hi | hi <;> rw [hi] at h
    · exact himp (fun hs => .inl ⟨hs, congrArg _ (decodeRx_eq_rxHandshake hi)⟩) (execRxHandshake_movesCrc h)
    · exact himp (fun hs => .inr ⟨hs, congrArg _ (decodeRx_eq_rxAck hi)⟩) (execRxAck_movesCrc h)
    · exact himp False.elim (execRxNak_movesCrc h)
    · rcases execRxCan_next h with ⟨_, rfl⟩ | ⟨_, rfl⟩ <;> exact ⟨rfl, .inl ⟨rfl, rfl⟩⟩
    · cases h; exact ⟨rfl, .inl ⟨rfl, rfl⟩⟩
  | rxfail => rcases execRxFail_next h with ⟨_, rfl⟩ | ⟨_, rfl⟩ <;> exact ⟨rfl, .inl ⟨rfl, rfl⟩⟩

end

/-- In a reading state that is not blocked, what is taken is the oldest input. -/
theorem inputs_of_takeInput {s : State} {i : Input} {rest : List Input} (hr : s.state.reading = true)
    (hb : s.blockedWrite = none) (h : takeInput s.accepts s.inputs = some (i, rest)) : s.inputs = i :: rest := by
  cases hin : s.inputs with
  | nil => rw [hin] at h; cases h
  | cons j l =>
    rw [hin, takeInput_head l (accepts_reading hr hb j)] at h
    cases h
    rfl

/-- R131: a host word loads no block. -/
theorem execDecodeHost_keeps_crc {w : HostWord} {s t : State} (h : exec (decodeHost w) s = .next t) :
    t.crcR = s.crcR ∧ t.blockCrc = s.blockCrc := by
  rcases decodeHost_cases w with ⟨st, run, maxRetry, size, hw⟩ | ⟨run, maxRetry, size, hw⟩ <;> rw [hw] at h
  · obtain ⟨-, ⟨_, rfl⟩ | ⟨_, rfl⟩ | ⟨_, rfl⟩⟩ := execHostStart_next h <;> exact ⟨rfl, rfl⟩
  · cases h

/-- R214: the rest of a blocked step leaves the CRC registers, or reset cuts a write of it: the one that is blocked,
whose late answer that is, or a later one. -/
theorem resumeWrite_crc {w : BlockedWrite} {a : TxAnswer} {s t : State}
    (h : (resumeWrite w a s).outcome = .next t) :
    t.crcR = s.crcR ∧ t.blockCrc = s.blockCrc ∨
      ((∃ k, QueueUsed (.cutByReset k) s t) ∨ (∃ k, a = .cutByReset k ∧ t.txAnswers = s.txAnswers)) ∧
        t.inputs = s.inputs ∧ t.crcR = 0x0000 ∧ t.state = .idle := by
  rcases resumeWrite_cases w a s with ⟨_, hw⟩ | ⟨k, _, hw⟩ | ⟨k, ha, hw⟩ | ⟨_, hw⟩ <;> rw [hw] at h
  · have hanswered : (Flow.go { s with blockedWrite := none, outputs := s.outputs ++ [.wire w.bytes] }).SendsBlock s :=
      ⟨⟨rfl, rfl, rfl, rfl, rfl⟩, .refl rfl⟩
    rcases (hanswered.foldl_andThen w.rest).outcome h with hk | hcut
    · exact .inl ⟨hk.crcR, hk.blockCrc⟩
    · exact .inr ⟨.inl hcut.answer, hcut.inputs, hcut.crcR, hcut.state⟩
  · cases h; exact .inl ⟨rfl, rfl⟩
  · cases h; exact .inr ⟨.inr ⟨k, ha, rfl⟩, rfl, rfl, rfl⟩
  · cases h; exact .inl ⟨rfl, rfl⟩

/-- Settles O54: by cases of what the step takes. Of the rows of the outside world, the handshake's and the ACK's alone
load a block; the writes after a load leave it, unless reset cuts one. -/
theorem runningCrcMovesByLoadOnly : Obligations.RunningCrcMovesByLoadOnly := by
  intro s t hext h
  rcases step_next h with ⟨_, rfl⟩ | ⟨i, rest, htake, ⟨a, rfl, hr, hb, j, hj, he⟩ | ⟨a, _, _, rfl⟩ |
    ⟨a, w, rfl, hw, he⟩ | ⟨w, m, _, _, he⟩ | ⟨rfl, rfl⟩ | ⟨b, _, _, rfl⟩ | ⟨w, rfl, _, _⟩ | ⟨b, rfl, _, _⟩⟩
  · exact .inl ⟨rfl, rfl⟩
  · rw [decode_coded] at hj
    cases hj
    have hin := inputs_of_takeInput hr hb htake
    obtain ⟨hrest, hkept | ⟨hloads, hholds⟩ | hcut⟩ := execReceived_movesCrc he
    · exact .inl hkept
    · refine .inr (.inl ⟨?_, hholds⟩)
      rw [hin, hrest]
      exact hloads.imp (And.imp_right (congrArg fun a => Input.rx a :: rest))
        (And.imp_right (congrArg fun a => Input.rx a :: rest))
    · obtain ⟨k, hq⟩ := hcut.answer
      exact .inr (.inr ⟨.inr ⟨k, .inl hq⟩, hcut.crcR, hcut.state⟩)
  · exact .inl ⟨rfl, rfl⟩
  · rcases resumeWrite_crc he with hkept | ⟨⟨k, hq⟩ | ⟨k, rfl, ha⟩, hi, hcrc, hstate⟩
    · exact .inl hkept
    · exact .inr (.inr ⟨.inr ⟨k, .inl hq⟩, hcrc, hstate⟩)
    · refine .inr (.inr ⟨.inr ⟨k, .inr ⟨?_, ?_, ha⟩⟩, hcrc, hstate⟩)
      · rw [hw]; exact Option.some_ne_none w
      · rw [htake, hi]
  · exact .inl (execDecodeHost_keeps_crc he :)
  · exact .inr (.inr ⟨.inl htake, rfl, rfl⟩)
  · exact .inl ⟨rfl, rfl⟩
  · cases hext _ (takeInput_mem htake).2.1
  · cases hext _ (takeInput_mem htake).2.1

/-! ## The numbers of frames -/

/-- R25: a unit of a frame's length carries the number `n` in byte 1 and its complement in byte 2. -/
def CarriesNumber (n : Byte) (bs : List Byte) : Prop :=
  bs.length = 133 → bs[1]? = some n ∧ bs[2]? = some (255 - n)

theorem CarriesNumber.of_short {n : Byte} {bs : List Byte} (h : bs.length ≤ 1) : CarriesNumber n bs :=
  fun hlen => by omega

/-- R84: a frame carries the number it was built with. -/
theorem carriesNumber_frameBytes (n : Byte) (bytes : List Byte) (crc : Word16) :
    CarriesNumber n (frameBytes n bytes crc) :=
  fun _ => ⟨rfl, rfl⟩

/-- A part of a unit of at most a frame's length carries a number only where it is the whole. -/
theorem CarriesNumber.of_prefix {n : Byte} {d bs : List Byte} (h : CarriesNumber n bs) (hlen : bs.length ≤ 133)
    (hd : d <+: bs) : CarriesNumber n d := fun hfull => by
  have hle := hd.length_le
  obtain rfl := hd.eq_of_length (by omega)
  exact h hfull

/-- From `s` to `t`, every frame on the wire carries one number, which is that of `t` unless a write is cut. -/
def SendsNumbered (s t : State) : Prop :=
  ∃ out n, t.outputs = s.outputs ++ out ∧ (∀ f, .wire f ∈ out → CarriesNumber n f) ∧
    ((∀ a ∈ s.txAnswers, a.cuts = false) → n = t.blockNumber)

/-- From `s` to `t`, the wire gets units of at most one byte only. -/
def SendsShort (s t : State) : Prop :=
  ∃ out, t.outputs = s.outputs ++ out ∧ ∀ f, .wire f ∈ out → f.length ≤ 1

section
variable {s t u : State}

theorem SendsNumbered.of_silent (h : t.outputs = s.outputs) : SendsNumbered s t :=
  ⟨[], t.blockNumber, by rw [h, List.append_nil], fun f hf => (nomatch hf), fun _ => rfl⟩

theorem SendsShort.of_silent (h : t.outputs = s.outputs) : SendsShort s t :=
  ⟨[], by rw [h, List.append_nil], fun f hf => nomatch hf⟩

theorem SendsShort.numbered (h : SendsShort s t) : SendsNumbered s t := by
  obtain ⟨out, ho, hshort⟩ := h
  exact ⟨out, t.blockNumber, ho, fun f hf => .of_short (hshort f hf), fun _ => rfl⟩

theorem SendsShort.trans (h : SendsShort s t) (h' : SendsShort t u) : SendsShort s u := by
  obtain ⟨out, ho, hshort⟩ := h
  obtain ⟨out', ho', hshort'⟩ := h'
  refine ⟨out ++ out', by rw [ho', ho, List.append_assoc], fun f hf => ?_⟩
  exact (List.mem_append.mp hf).elim (hshort f) (hshort' f)

/-- R29: whatever its answer, a write puts its first bytes on the wire in one piece, or nothing while it waits. -/
theorem txWrite_outputs {bs : List Byte} (h : (txWrite bs s).outcome = .next t) :
    ∃ out, t.outputs = s.outputs ++ out ∧ (∀ f, .wire f ∈ out → f <+: bs) ∧
      ((∀ a ∈ s.txAnswers, a.cuts = false) → t.blockNumber = s.blockNumber) := by
  rcases txWrite_next h with ⟨_, rfl⟩ | ⟨k, _, rfl⟩ | ⟨k, ha, rfl⟩ | ⟨_, rfl⟩
  · exact ⟨[.wire bs], rfl, by simp, fun _ => rfl⟩
  · exact ⟨[.wire (strictPrefix k bs)], rfl, by simp [strictPrefix_isPrefix], fun _ => rfl⟩
  · refine ⟨[.wire (bs.take k)], rfl, by simp [List.take_prefix], fun hq => ?_⟩
    have hcut := nextAnswer_of_forall (p := fun a => a.cuts = false) rfl hq
    rw [ha] at hcut; cases hcut
  · exact ⟨[], (List.append_nil _).symm, by simp, fun _ => rfl⟩

theorem txWrite_numbered {bs : List Byte} (hbs : CarriesNumber s.blockNumber bs) (hlen : bs.length ≤ 133)
    (h : (txWrite bs s).outcome = .next t) : SendsNumbered s t := by
  obtain ⟨out, ho, hprefix, hnumber⟩ := txWrite_outputs h
  exact ⟨out, s.blockNumber, ho, fun f hf => hbs.of_prefix hlen (hprefix f hf), fun hq => (hnumber hq).symm⟩

theorem txWrite_short {bs : List Byte} (hlen : bs.length ≤ 1) (h : (txWrite bs s).outcome = .next t) :
    SendsShort s t := by
  obtain ⟨out, ho, hprefix, -⟩ := txWrite_outputs h
  exact ⟨out, ho, fun f hf => (hprefix f hf).length_le.trans hlen⟩

theorem sendFrame_numbered (h : (sendFrame s).outcome = .next t) : SendsNumbered s t := by
  rcases sendFrame_cases s with ⟨_, hs⟩ | ⟨bs, hp, hs⟩ <;> rw [hs] at h
  · cases h
  · obtain ⟨out, n, ho, hout, hn⟩ := txWrite_numbered (s := s.reportProgress)
      (carriesNumber_frameBytes _ _ _) (frameBytes_length hp _ _).le h
    refine ⟨.progress s.blockIndex s.totalBlocks :: out, n, ?_, fun f hf => hout f ?_, hn⟩
    · rw [ho]; simp [State.reportProgress, State.emit]
    · simpa using hf

theorem sendRun_short (h : (sendRun s).outcome = .next t) : SendsShort s t := by
  rw [sendRun_eq] at h
  split at h
  · exact txWrite_short (by simp) h
  · cases h; exact .of_silent rfl

/-- R178: the writes of a termination. -/
theorem termination_short {f : Flow} {l : List RowPart} (hl : l ⊆ [.sendRun, .enterDone])
    (hf : ∀ u, f.outcome = .next u → SendsShort s u) (h : (l.foldl Flow.andThen f).outcome = .next t) :
    SendsShort s t := by
  refine foldl_andThen_preserves (fun p hp u v hu hv => ?_) (fun _ _ hu => hu) hf t h
  have hp' := hl hp
  simp only [List.mem_cons, List.not_mem_nil, or_false] at hp'
  rcases hp' with rfl | rfl
  · exact hu.trans (sendRun_short hv)
  · cases hv; exact hu

theorem enterTermination_short (h : (enterTermination s).outcome = .next t) : SendsShort s t :=
  termination_short (l := [.sendRun, .enterDone]) (fun _ hp => hp)
    (fun _ hu => txWrite_short (bs := [Wire.eot]) (s := s.enterTerminationAck) (Nat.le_refl 1) hu) h

/-- Every meaning numbers the frames it sends. -/
theorem exec_numbered {i : Instr} (h : exec i s = .next t) : SendsNumbered s t := by
  cases i with
  | rxHandshake =>
    rcases execRxHandshake_next h with ⟨_, rfl⟩ | ⟨_, _, h⟩ | ⟨_, _, h⟩
    · exact .of_silent rfl
    · exact (enterTermination_short h).numbered
    · obtain ⟨c, p, r, hl⟩ := loadBlock_frame (s.rewind.setEof false)
      rw [hl, Flow.andThen_go, RowPart.run_enterSending, Flow.andThen_go, RowPart.run_sendFrame] at h
      exact (sendFrame_numbered h :)
  | rxAck =>
    rcases execRxAck_next h with ⟨_, rfl⟩ | ⟨_, _, h⟩ | ⟨_, _, h⟩
    · exact .of_silent rfl
    · exact (enterTermination_short h).numbered
    · obtain ⟨c, p, r, hl⟩ := loadBlock_frame s.advanceBlock
      rw [hl, Flow.andThen_go, RowPart.run_sendFrame] at h
      exact (sendFrame_numbered h :)
  | rxNak =>
    rcases execRxNak_next h with ⟨_, rfl⟩ | ⟨_, _, rfl⟩ | ⟨_, _, h⟩
    · exact .of_silent rfl
    · exact .of_silent rfl
    · exact (sendFrame_numbered h :)
  | rxCan => rcases execRxCan_next h with ⟨_, rfl⟩ | ⟨_, rfl⟩ <;> exact .of_silent rfl
  | rxFail => rcases execRxFail_next h with ⟨_, rfl⟩ | ⟨_, rfl⟩ <;> exact .of_silent rfl
  | txFrame => exact sendFrame_numbered h
  | txEot => exact (txWrite_short (bs := [Wire.eot]) (Nat.le_refl 1) h).numbered
  | txRun => exact (sendRun_short h).numbered
  | hostStart status run maxRetry size =>
    obtain ⟨-, ⟨_, rfl⟩ | ⟨_, rfl⟩ | ⟨_, rfl⟩⟩ := execHostStart_next h <;> exact .of_silent rfl
  | hostStartRsv | crcRsv => cases h
  | rxOther | crcHold | crcClear | crcUpdate => cases h; exact .of_silent rfl

/-- R214: a frame that waited carries the number of the registers; the other blocked writes are of one byte. -/
theorem resumeWrite_numbered {w : BlockedWrite} {a : TxAnswer} (hfacts : BlockedFacts s)
    (hw : s.blockedWrite = some w) (h : (resumeWrite w a s).outcome = .next t) :
    SendsNumbered { s with txAnswers := a :: s.txAnswers } t := by
  rw [resumeWrite_eq_txWrite] at h
  obtain ⟨bytes, rest⟩ := w
  have hshort (hl : rest ⊆ [.sendRun, .enterDone]) (hb : bytes.length ≤ 1) :
      SendsNumbered { s with txAnswers := a :: s.txAnswers } t :=
    (termination_short hl (fun _ hu => txWrite_short hb hu) h).numbered
  obtain ⟨-, hrow⟩ := hfacts
  rcases hrow _ hw with ⟨_, hrest, hframe | hb | hb⟩ | ⟨_, hrest, hb⟩ | ⟨_, hrest, _, hb⟩ <;> cases hrest
  · cases hp : payload s with
    | none => rw [frame, hp] at hframe; cases hframe
    | some bs =>
      rw [frame_of_payload hp, Option.some.injEq] at hframe
      subst hframe
      exact txWrite_numbered (s := { s with blockedWrite := none, txAnswers := a :: s.txAnswers })
        (carriesNumber_frameBytes _ _ _) (frameBytes_length hp _ _).le h
  all_goals cases hb; exact hshort (by simp) (Nat.le_refl 1)

end

/-- R25: every step numbers the frames it sends. -/
theorem step_numbered {s t : State} (hinv : Inv s) (h : step s = .next t) :
    ∃ out n, t.outputs = s.outputs ++ out ∧ (∀ f, .wire f ∈ out → CarriesNumber n f) ∧
      (NoCut s → n = t.blockNumber) := by
  have hqueue {u : State} (hn : SendsNumbered u t) (ho : u.outputs = s.outputs)
      (hcut : NoCut s → ∀ a ∈ u.txAnswers, a.cuts = false) :
      ∃ out n, t.outputs = s.outputs ++ out ∧ (∀ f, .wire f ∈ out → CarriesNumber n f) ∧
        (NoCut s → n = t.blockNumber) := by
    obtain ⟨out, n, hout, hcarries, hnumber⟩ := hn
    exact ⟨out, n, ho ▸ hout, hcarries, fun hno => hnumber (hcut hno)⟩
  have hsilent (ho : t.outputs = s.outputs) := hqueue (.of_silent ho) rfl And.left
  rcases step_next h with ⟨_, rfl⟩ | ⟨i, rest, htake, ⟨a, _, _, _, j, _, he⟩ | ⟨a, _, _, rfl⟩ | ⟨a, w, rfl, hw, he⟩ |
    ⟨w, m, _, _, he⟩ | ⟨_, rfl⟩ | ⟨b, _, _, rfl⟩ | ⟨w, _, _, he⟩ | ⟨b, _, _, j, _, he⟩⟩
  · exact hsilent rfl
  · exact hqueue (exec_numbered he) rfl And.left
  · exact hsilent rfl
  · obtain ⟨-, -, -, -, hblocked, -⟩ := hinv
    refine hqueue (resumeWrite_numbered (s := { s with inputs := rest }) hblocked hw he) rfl fun hno => ?_
    exact List.forall_mem_cons.mpr ⟨hno.2 a (takeInput_mem htake).2.1, hno.1⟩
  · exact hqueue (exec_numbered he) rfl And.left
  · exact hsilent rfl
  · exact hsilent rfl
  · exact hqueue (exec_numbered he) rfl And.left
  · exact hqueue (exec_numbered he) rfl And.left

theorem complement_eq_xor (n : Byte) : 255 - n = n ^^^ 0xFF := by
  have hones : (255 : Byte) = BitVec.allOnes 8 := rfl
  rw [hones, BitVec.allOnes_sub_eq_not, BitVec.xor_allOnes]

/-- Settles O55: a write of 133 bytes is a whole frame, built from `blockNumber`. -/
theorem framesCarryComplement : Obligations.FramesCarryComplement := by
  intro s t hinv h f hf hlen
  obtain ⟨out, n, hout, hcarries, hnumber⟩ := step_numbered hinv h
  rw [hout, List.drop_left] at hf
  obtain ⟨hbyte, hcomplement⟩ := hcarries f hf hlen
  exact ⟨n, hbyte, hcomplement, complement_eq_xor n, hnumber⟩

end Sys2Proof.Machine

/-! SUPPORT. The obligations of 20_memory.md: what PBUF gives back (R62), and that what is on the wire stays (R69,
R72). -/

namespace Sys2Proof.Machine

/-! ## PBUF -/

/-- Settles O20: the laws of the byte spaces, for the write to PBUF. -/
theorem pbufReturnsWhatIsWritten : Obligations.PbufReturnsWhatIsWritten := fun s i v hi =>
  ⟨Memory.read_write_same_pbuf s.pbuf i v, fun _ hj => Memory.read_write_other s.pbuf v hj,
    Memory.write_wf s.pbuf i v hi⟩

/-- The results of `mapM` stand in the order of the list. -/
theorem mapM_getElem? {α β : Type} {f : α → Option β} {l : List α} {bs : List β} (h : l.mapM f = some bs)
    (k : Nat) : bs[k]? = l[k]?.bind f := by
  induction l generalizing bs k with
  | nil => cases h; rfl
  | cons a l ih =>
    simp only [List.mapM_cons, Option.bind_eq_bind, Option.bind_eq_some_iff] at h
    obtain ⟨b, hb, bs', hbs', hcons⟩ := h
    cases hcons
    cases k with
    | zero => exact hb.symm
    | succ k => exact ih hbs' k

/-- R85: byte `k` of PAYLOAD is PBUF[k]. -/
theorem payload_getElem? {s : State} {bs : List Byte} (h : payload s = some bs) {k : Nat}
    (hk : k < Config.blockSize) : bs[k]? = pbufRead s k := by
  rw [mapM_getElem? h, List.getElem?_range hk, Option.bind_some]

/-- R62: PAYLOAD holds no value where one of its bytes holds none. -/
theorem payload_eq_none {s : State} {k : Nat} (hk : k < Config.blockSize) (hnone : pbufRead s k = none) :
    payload s = none := by
  refine Option.eq_none_iff_forall_not_mem.mpr fun bs hbs => ?_
  have hlen : bs.length ≤ k := List.getElem?_eq_none_iff.mp ((payload_getElem? hbs hk).trans hnone)
  rw [payload_length hbs] at hlen
  exact absurd hk hlen.not_gt

/-- Settles O37: the framer has no payload to send. -/
theorem unwrittenPayloadFaults : Obligations.UnwrittenPayloadFaults := by
  intro s k hk hnone
  rcases sendFrame_cases s with ⟨_, hstuck⟩ | ⟨bs, hbs, _⟩
  · exact congrArg Flow.outcome hstuck
  · rw [payload_eq_none hk hnone] at hbs; cases hbs

/-! ## What has been transmitted stays -/

section
variable {s t : State}

theorem SendsNumbered.outputs_prefix (h : SendsNumbered s t) : s.outputs <+: t.outputs := by
  obtain ⟨out, _, ho, _⟩ := h
  exact ⟨out, ho.symm⟩

/-- R29: no answer to a write takes back what is on the wire. -/
theorem txWrite_outputs_prefix {bs : List Byte} (h : (txWrite bs s).outcome = .next t) : s.outputs <+: t.outputs := by
  obtain ⟨out, ho, _⟩ := txWrite_outputs h
  exact ⟨out, ho.symm⟩

theorem run_outputs_prefix {p : RowPart} (h : (p.run s).outcome = .next t) : s.outputs <+: t.outputs := by
  cases p with
  | enterSending => cases h; exact List.prefix_rfl
  | sendFrame => exact (sendFrame_numbered h).outputs_prefix
  | sendRun => exact (sendRun_short h).numbered.outputs_prefix
  | enterDone => cases h; exact List.prefix_rfl

/-- R214: whatever a blocked step has left to run only adds to what it had transmitted. -/
theorem resumeWrite_outputs_prefix {w : BlockedWrite} {a : TxAnswer} (h : (resumeWrite w a s).outcome = .next t) :
    s.outputs <+: t.outputs := by
  rw [resumeWrite_eq_txWrite] at h
  refine foldl_andThen_preserves (P := fun u => s.outputs <+: u.outputs)
    (fun _ _ _ _ hu hv => hu.trans (run_outputs_prefix hv)) (fun _ _ hu => hu) (fun _ hu => ?_) t h
  exact (txWrite_outputs_prefix hu :)

end

/-- Settles O51: every meaning, and the rest of a blocked step, only adds outputs; the inputs that are no instruction
leave them, hardware reset too. -/
theorem outputsOnlyGrow : Obligations.OutputsOnlyGrow := by
  intro s t h
  have hexec {i : Instr} {u : State} (he : exec i u = .next t) : u.outputs <+: t.outputs :=
    (exec_numbered he).outputs_prefix
  rcases step_next h with ⟨_, rfl⟩ | ⟨i, rest, _, ⟨a, _, _, _, j, _, he⟩ | ⟨a, _, _, rfl⟩ | ⟨a, w, _, _, he⟩ |
    ⟨w, m, _, _, he⟩ | ⟨_, rfl⟩ | ⟨b, _, _, rfl⟩ | ⟨w, _, _, he⟩ | ⟨b, _, _, j, _, he⟩⟩
  · exact List.prefix_rfl
  · exact (hexec he :)
  · exact List.prefix_rfl
  · exact (resumeWrite_outputs_prefix he :)
  · exact (hexec he :)
  · exact List.prefix_rfl
  · exact List.prefix_rfl
  · exact (hexec he :)
  · exact (hexec he :)

end Sys2Proof.Machine

/-! SUPPORT. The obligations of 30_encoding.md: the fields of the operand words (R89, R90), decoding and encoding as
inverses (R81 to R93), the TX stream (R93), the frame (R84) and the codes of the status ports (R86, R87). -/

namespace Sys2Proof

/-! ## The fields of the two operand words -/

/-- One bit of a word as a field of width 1. -/
theorem ofBool_getLsbD {n : Nat} (w : BitVec n) (k : Nat) : BitVec.ofBool (w.getLsbD k) = w.extractLsb' k 1 := by
  ext j hj
  obtain rfl : j = 0 := by omega
  simp

/-- Two fields of a word, one right above the other, are one field. -/
theorem extractLsb'_append_above {n : Nat} (w : BitVec n) (start low high : Nat) :
    w.extractLsb' (start + low) high ++ w.extractLsb' start low = w.extractLsb' start (high + low) :=
  BitVec.extractLsb'_append_extractLsb'_eq_extractLsb' rfl

section
variable (status : BitVec 2) (run : Bool) (maxRetry : Byte) (size : Word32)

/-- R90: `host_cmd` is its four fields side by side, the highest first. -/
theorem encodeHost_eq_append :
    encodeHost status run maxRetry size = size ++ maxRetry ++ BitVec.ofBool run ++ status := by
  rw [← BitVec.setWidth_eq (size ++ maxRetry ++ BitVec.ofBool run ++ status),
    BitVec.setWidth_append_append_append_eq_shiftLeft_setWidth_or, encodeHost]

@[simp] theorem encodeHost_status : (encodeHost status run maxRetry size).extractLsb' 0 2 = status := by
  rw [encodeHost_eq_append, BitVec.extractLsb'_append_eq_right]

theorem encodeHost_run : (encodeHost status run maxRetry size).getLsbD 2 = run := by
  rw [encodeHost_eq_append, BitVec.getLsbD_append, if_neg (by decide), BitVec.getLsbD_append, if_pos (by decide)]
  exact BitVec.getLsbD_ofBool run 0

@[simp] theorem encodeHost_maxRetry : (encodeHost status run maxRetry size).extractLsb' 3 8 = maxRetry := by
  simp only [encodeHost_eq_append, BitVec.extractLsb'_append_eq_of_le, Nat.reduceLeDiff, Nat.reduceSub,
    BitVec.extractLsb'_append_eq_right]

@[simp] theorem encodeHost_fileSize : (encodeHost status run maxRetry size).extractLsb' 11 32 = size := by
  simp only [encodeHost_eq_append, BitVec.extractLsb'_append_eq_of_le, Nat.reduceLeDiff, Nat.reduceSub,
    BitVec.extractLsb'_eq_self]

end

/-- R90: the four fields are the whole of a `host_cmd`. -/
theorem encodeHost_of_fields (w : HostWord) :
    encodeHost (w.extractLsb' 0 2) (w.getLsbD 2) (w.extractLsb' 3 8) (w.extractLsb' 11 32) = w := by
  rw [encodeHost_eq_append, ofBool_getLsbD]
  calc w.extractLsb' 11 32 ++ w.extractLsb' 3 8 ++ w.extractLsb' 2 1 ++ w.extractLsb' 0 2
      = w.extractLsb' 3 40 ++ w.extractLsb' 2 1 ++ w.extractLsb' 0 2 :=
        congrArg (· ++ _ ++ _) (extractLsb'_append_above w 3 8 32)
    _ = w.extractLsb' 2 41 ++ w.extractLsb' 0 2 :=
        congrArg (· ++ _) (extractLsb'_append_above w 2 1 40)
    _ = w := BitVec.extractLsb'_append_extractLsb'

/-- R89: `crc_op` is its two fields side by side. -/
theorem encodeCrc_eq_append (d : Byte) (op : BitVec 2) : encodeCrc d op = d ++ op := by
  rw [← BitVec.setWidth_eq (d ++ op), BitVec.setWidth_append_eq_shiftLeft_setWidth_or, encodeCrc]

@[simp] theorem encodeCrc_op (d : Byte) (op : BitVec 2) : (encodeCrc d op).extractLsb' 0 2 = op := by
  rw [encodeCrc_eq_append, BitVec.extractLsb'_append_eq_right]

@[simp] theorem encodeCrc_data (d : Byte) (op : BitVec 2) : (encodeCrc d op).extractLsb' 2 8 = d := by
  rw [encodeCrc_eq_append, BitVec.extractLsb'_append_eq_left]

/-- R89: the two fields are the whole of a `crc_op`. -/
theorem encodeCrc_of_fields (w : CrcWord) : encodeCrc (w.extractLsb' 2 8) (w.extractLsb' 0 2) = w := by
  rw [encodeCrc_eq_append]
  exact BitVec.extractLsb'_append_extractLsb'

/-- R64: the two CRC bytes of a frame give the CRC back. -/
theorem crcOfBytes_high_low (crc : Word16) : crcOfBytes (crcHigh crc) (crcLow crc) = crc := by
  have happend : crcOfBytes (crcHigh crc) (crcLow crc) = crcHigh crc ++ crcLow crc := by
    rw [← BitVec.setWidth_eq (crcHigh crc ++ crcLow crc), BitVec.setWidth_append_eq_shiftLeft_setWidth_or, crcOfBytes]
  rw [happend]
  exact BitVec.extractLsb'_append_extractLsb'

/-! ## Decoding an encoded instruction -/

/-- R88: the codes that START accepts read back, and 3 is the only one left. -/
@[simp] theorem SrcStatus.ofCode?_code (status : SrcStatus) : SrcStatus.ofCode? status.code = some status := by
  cases status <;> rfl

theorem SrcStatus.code_of_ofCode? {c : BitVec 2} {status : SrcStatus} (h : SrcStatus.ofCode? c = some status) :
    status.code = c := by
  unfold SrcStatus.ofCode? at h
  split_ifs at h with h0 h1 h2 <;> cases h
  · exact h0.symm
  · exact h1.symm
  · exact h2.symm

theorem SrcStatus.eq_reserved_of_ofCode? : ∀ {c : BitVec 2}, SrcStatus.ofCode? c = none → c = 3 := by
  decide

/-- R90: an accepted `src_status`, and the other three fields as the operands of START. -/
theorem decodeHost_of_accepted {w : HostWord} {status : SrcStatus}
    (h : SrcStatus.ofCode? (w.extractLsb' 0 2) = some status) :
    decodeHost w = .hostStart status (w.getLsbD 2) (w.extractLsb' 3 8) (w.extractLsb' 11 32) := by
  simp only [decodeHost, h]

theorem decodeHost_of_reserved {w : HostWord} (h : SrcStatus.ofCode? (w.extractLsb' 0 2) = none) :
    decodeHost w = .hostStartRsv (w.getLsbD 2) (w.extractLsb' 3 8) (w.extractLsb' 11 32) := by
  simp only [decodeHost, h]

theorem decodeHost_encodeHost (status : SrcStatus) (run : Bool) (maxRetry : Byte) (size : Word32) :
    decodeHost (encodeHost status.code run maxRetry size) = .hostStart status run maxRetry size := by
  rw [decodeHost_of_accepted (status := status) (by simp), encodeHost_run, encodeHost_maxRetry, encodeHost_fileSize]

theorem decodeHost_encodeHost_reserved (run : Bool) (maxRetry : Byte) (size : Word32) :
    decodeHost (encodeHost 3 run maxRetry size) = .hostStartRsv run maxRetry size := by
  have hreserved : SrcStatus.ofCode? 3 = none := rfl
  rw [decodeHost_of_reserved (by simpa using hreserved), encodeHost_run, encodeHost_maxRetry, encodeHost_fileSize]

section
variable {w : CrcWord}

/-- R89: the four operations, by bits [1:0]. -/
theorem decodeCrc_of_hold (h : w.extractLsb' 0 2 = 0) : decodeCrc w = .crcHold (w.extractLsb' 2 8) := by
  rw [decodeCrc, h]; rfl

theorem decodeCrc_of_clear (h : w.extractLsb' 0 2 = 1) : decodeCrc w = .crcClear (w.extractLsb' 2 8) := by
  rw [decodeCrc, h]; rfl

theorem decodeCrc_of_update (h : w.extractLsb' 0 2 = 2) : decodeCrc w = .crcUpdate (w.extractLsb' 2 8) := by
  rw [decodeCrc, h]; rfl

theorem decodeCrc_of_reserved (h : w.extractLsb' 0 2 = 3) : decodeCrc w = .crcRsv (w.extractLsb' 2 8) := by
  rw [decodeCrc, h]; rfl

end

theorem mem_alphabet_iff {b : Byte} :
    b ∈ Wire.alphabet ↔ b = Wire.handshake ∨ b = Wire.ack ∨ b = Wire.nak ∨ b = Wire.can := by
  simp [Wire.alphabet]

theorem Instr.wf_rxOther_iff {b : Byte} : (Instr.rxOther b).wf = true ↔ b ∉ Wire.alphabet := by
  simp [Instr.wf]

/-- R81: a byte outside the alphabet is RX_OTHER. -/
theorem decodeRx_of_notMem {b : Byte} (h : b ∉ Wire.alphabet) : decodeRx b = .rxOther b := by
  simp only [mem_alphabet_iff, not_or] at h
  obtain ⟨hhandshake, hack, hnak, hcan⟩ := h
  simp only [decodeRx, hhandshake, hack, hnak, hcan, if_false]

theorem runByteDistinct_iff {runByte : Byte} :
    runByteDistinct runByte = true ↔ runByte ≠ Wire.soh ∧ runByte ≠ Wire.eot := by
  simp [runByteDistinct]

/-- R93: a RUN_BYTE that is no SOH and no EOT reads as RUN. -/
theorem decodeTx_runByte {runByte : Byte} (h : runByteDistinct runByte = true) :
    decodeTx runByte runByte = .ok .txRun := by
  obtain ⟨hsoh, heot⟩ := runByteDistinct_iff.mp h
  simp only [decodeTx, hsoh, heot, if_false, if_true]

/-- Settles O16: the rows without operands decode by their constants, the rest by the fields of their words. -/
theorem decodeOfEncode : Obligations.DecodeOfEncode := by
  intro runByte i hrun hwf
  cases i with
  | rxHandshake | rxAck | rxNak | rxCan | rxFail | txFrame | txEot => rfl
  | rxOther b => exact congrArg Except.ok (decodeRx_of_notMem (Instr.wf_rxOther_iff.mp hwf))
  | txRun => exact decodeTx_runByte hrun
  | hostStart status run maxRetry size => exact congrArg Except.ok (decodeHost_encodeHost status run maxRetry size)
  | hostStartRsv run maxRetry size => exact congrArg Except.ok (decodeHost_encodeHost_reserved run maxRetry size)
  | crcHold d => simp [encode, decode, decodeCrc_of_hold]
  | crcClear d => simp [encode, decode, decodeCrc_of_clear]
  | crcUpdate d => simp [encode, decode, decodeCrc_of_update]
  | crcRsv d => simp [encode, decode, decodeCrc_of_reserved]

/-! ## Encoding a decoded unit -/

/-- R81: what a byte decodes to is well-formed and encodes to that byte. -/
theorem encode_decodeRx (runByte b : Byte) :
    (decodeRx b).wf = true ∧ encode runByte (decodeRx b) = .rxSymbol b := by
  by_cases hb : b ∈ Wire.alphabet
  · rcases mem_alphabet_iff.mp hb with rfl | rfl | rfl | rfl <;> exact ⟨rfl, rfl⟩
  · rw [decodeRx_of_notMem hb]
    exact ⟨Instr.wf_rxOther_iff.mpr hb, rfl⟩

/-- R93: the first byte of a transmitted unit is the one its encoding has. -/
theorem encode_of_decodeTx {runByte first : Byte} {i : Instr} (h : decodeTx runByte first = .ok i) :
    i.wf = true ∧ encode runByte i = .txUnit first := by
  unfold decodeTx at h
  split_ifs at h with hsoh heot hrun <;> cases h
  · exact ⟨rfl, hsoh ▸ rfl⟩
  · exact ⟨rfl, heot ▸ rfl⟩
  · exact ⟨rfl, hrun ▸ rfl⟩

/-- R88, R90: a START encodes to the word it came from, the reserved one too. -/
theorem encode_decodeHost (runByte : Byte) (w : HostWord) :
    (decodeHost w).wf = true ∧ encode runByte (decodeHost w) = .hostCmd w := by
  cases hstatus : SrcStatus.ofCode? (w.extractLsb' 0 2) with
  | some status =>
    rw [decodeHost_of_accepted hstatus, encode, SrcStatus.code_of_ofCode? hstatus, encodeHost_of_fields]
    exact ⟨rfl, rfl⟩
  | none =>
    rw [decodeHost_of_reserved hstatus, encode, ← SrcStatus.eq_reserved_of_ofCode? hstatus, encodeHost_of_fields]
    exact ⟨rfl, rfl⟩

/-- R89: a CRGEN operation encodes to the word it came from, the bits it ignores too. -/
theorem encode_decodeCrc (runByte : Byte) (w : CrcWord) :
    (decodeCrc w).wf = true ∧ encode runByte (decodeCrc w) = .crcOp w := by
  have hcodes : ∀ c : BitVec 2, c = 0 ∨ c = 1 ∨ c = 2 ∨ c = 3 := by decide
  have hfields {op : BitVec 2} (h : w.extractLsb' 0 2 = op) :
      Coded.crcOp (encodeCrc (w.extractLsb' 2 8) op) = .crcOp w :=
    congrArg Coded.crcOp (h ▸ encodeCrc_of_fields w)
  rcases hcodes (w.extractLsb' 0 2) with h | h | h | h
  · rw [decodeCrc_of_hold h]; exact ⟨rfl, hfields h⟩
  · rw [decodeCrc_of_clear h]; exact ⟨rfl, hfields h⟩
  · rw [decodeCrc_of_update h]; exact ⟨rfl, hfields h⟩
  · rw [decodeCrc_of_reserved h]; exact ⟨rfl, hfields h⟩

/-- Settles O17: the decoder drops no bit of any format. -/
theorem encodeOfDecode : Obligations.EncodeOfDecode := by
  intro runByte c i h
  cases c with
  | rxSymbol b => cases h; exact encode_decodeRx runByte b
  | rxEvent => cases h; exact ⟨rfl, rfl⟩
  | txUnit first => exact encode_of_decodeTx h
  | hostCmd w => cases h; exact encode_decodeHost runByte w
  | crcOp w => cases h; exact encode_decodeCrc runByte w

/-! ## The TX stream (R93) -/

/-- R84: a receiver takes a whole frame off the stream by its length alone. -/
theorem TxUnit.read?_frame (runByte bn : Byte) {payload : List Byte} (crc : Word16) (rest : List Byte)
    (hlen : payload.length = Config.blockSize) :
    TxUnit.read? runByte (frameBytes bn payload crc ++ rest) = some (.frame bn payload crc, rest) := by
  simp only [frameBytes, List.append_assoc, List.cons_append, List.nil_append, TxUnit.read?, if_true,
    List.drop_left' hlen, List.take_left' hlen, crcOfBytes_high_low]

/-- R84, R91: the first unit of a stream is the one that was sent first. -/
theorem TxUnit.read?_bytes {runByte : Byte} (hrun : runByteDistinct runByte = true) {u : TxUnit} (hu : u.wf = true)
    (rest : List Byte) : TxUnit.read? runByte (u.bytes runByte ++ rest) = some (u, rest) := by
  cases u with
  | frame bn payload crc => exact TxUnit.read?_frame runByte bn crc rest (eq_of_beq hu)
  | eot => rfl
  | run =>
    obtain ⟨hsoh, heot⟩ := runByteDistinct_iff.mp hrun
    simp only [TxUnit.bytes, List.cons_append, List.nil_append, TxUnit.read?, hsoh, heot, if_false, if_true]

theorem TxUnit.bytes_ne_nil (runByte : Byte) (u : TxUnit) : u.bytes runByte ≠ [] := by
  cases u <;> exact List.cons_ne_nil _ _

/-- One unit of fuel reads the first unit of the stream off. -/
theorem TxUnit.readAll?_of_read? {runByte : Byte} {bs rest : List Byte} {u : TxUnit} (hne : bs ≠ [])
    (h : TxUnit.read? runByte bs = some (u, rest)) (fuel : Nat) :
    TxUnit.readAll? runByte (fuel + 1) bs = (TxUnit.readAll? runByte fuel rest).map (u :: ·) := by
  cases bs with
  | nil => exact absurd rfl hne
  | cons b bs => simp only [TxUnit.readAll?, h]

/-- R93: the units come back for any fuel that is not below the length of their stream. -/
theorem TxUnit.readAll?_flatMap {runByte : Byte} (hrun : runByteDistinct runByte = true) {units : List TxUnit}
    (hwf : ∀ u ∈ units, u.wf = true) {fuel : Nat} (hfuel : (units.flatMap (·.bytes runByte)).length ≤ fuel) :
    TxUnit.readAll? runByte fuel (units.flatMap (·.bytes runByte)) = some units := by
  induction units generalizing fuel with
  | nil => cases fuel <;> rfl
  | cons u us ih =>
    obtain ⟨hu, hus⟩ := List.forall_mem_cons.mp hwf
    have hne := TxUnit.bytes_ne_nil runByte u
    have hpos : 0 < (u.bytes runByte).length := List.length_pos_iff.mpr hne
    rw [List.flatMap_cons] at hfuel ⊢
    rw [List.length_append] at hfuel
    obtain ⟨fuel, rfl⟩ : ∃ n, fuel = n + 1 := ⟨fuel - 1, by omega⟩
    rw [TxUnit.readAll?_of_read? (List.append_ne_nil_of_left_ne_nil hne _) (TxUnit.read?_bytes hrun hu _),
      ih hus (by omega), Option.map_some]

/-- Settles O18, by induction on the units: the length of a frame, not its bytes, says where it ends. -/
theorem txStreamReadsBack : Obligations.TxStreamReadsBack := fun _ _ hrun hwf => TxUnit.readAll?_flatMap hrun hwf le_rfl

/-! ## The fields of received bytes and operand words -/

/-- Settles O12: the four named bytes one by one, and their complement. -/
theorem receivedByteClasses : Obligations.ReceivedByteClasses := by
  intro runByte b
  refine ⟨?_, ?_, ?_, ?_, fun hhandshake hack hnak hcan => ?_, rfl⟩
  · rintro rfl; rfl
  · rintro rfl; rfl
  · rintro rfl; rfl
  · rintro rfl; rfl
  · have hb : b ∉ Wire.alphabet := by
      simp only [mem_alphabet_iff, not_or]
      exact ⟨hhandshake, hack, hnak, hcan⟩
    exact congrArg Except.ok (decodeRx_of_notMem hb)

/-- The lowest two bits of a word, from its bits 1 and 0. -/
theorem extractLsb'_two {n : Nat} (w : BitVec n) :
    w.extractLsb' 0 2 = BitVec.ofBool (w.getLsbD 1) ++ BitVec.ofBool (w.getLsbD 0) := by
  rw [ofBool_getLsbD, ofBool_getLsbD]
  exact (extractLsb'_append_above w 0 1 1).symm

/-- Settles O13: bits 1 and 0 are the operation field. -/
theorem crcWordFields : Obligations.CrcWordFields := by
  intro runByte w
  have hop {hi lo : Bool} (h1 : w.getLsbD 1 = hi) (h0 : w.getLsbD 0 = lo) :
      w.extractLsb' 0 2 = BitVec.ofBool hi ++ BitVec.ofBool lo := by
    rw [extractLsb'_two, h1, h0]
  exact ⟨fun h1 h0 => congrArg Except.ok (decodeCrc_of_hold (hop h1 h0)),
    fun h1 h0 => congrArg Except.ok (decodeCrc_of_clear (hop h1 h0)),
    fun h1 h0 => congrArg Except.ok (decodeCrc_of_update (hop h1 h0)),
    fun h1 h0 => congrArg Except.ok (decodeCrc_of_reserved (hop h1 h0))⟩

/-- Settles O14: `src_status` picks the row, and the other fields are the operands in each. -/
theorem hostWordFields : Obligations.HostWordFields := by
  intro runByte w
  exact ⟨fun h => congrArg Except.ok (decodeHost_of_accepted (congrArg SrcStatus.ofCode? h)),
    fun h => congrArg Except.ok (decodeHost_of_accepted (congrArg SrcStatus.ofCode? h)),
    fun h => congrArg Except.ok (decodeHost_of_accepted (congrArg SrcStatus.ofCode? h)),
    fun h => congrArg Except.ok (decodeHost_of_reserved (congrArg SrcStatus.ofCode? h))⟩

/-- R84, log 12: a table word read as a frame is one if it fits and its first byte is SOH, whatever the other bytes. -/
theorem decodeTableWord_frame {nbits w : Nat} (hformat : formatOfTableWord nbits w = .txFrame)
    (hwidth : w < 2 ^ Format.txFrame.width) (hsoh : BitVec.ofNat 8 w = Wire.soh) :
    decodeTableWord nbits w = some .txFrame := by
  simp only [decodeTableWord, codedOfTableWord, hformat, codedOfNat, hwidth, hsoh, if_true]
  rfl

/-- Settles O15, by running the decoder on each word; of the two frames only the width and the first byte matter. -/
theorem sampleWordsDecode : Obligations.SampleWordsDecode := by
  unfold Obligations.SampleWordsDecode
  refine ⟨by decide, by decide, by decide, by decide, ?_, ?_, by decide, by decide, by decide, by decide, by decide,
    by decide⟩
  · exact decodeTableWord_frame rfl (Nat.one_lt_two_pow (by decide)) rfl
  · exact decodeTableWord_frame rfl ((Nat.log2_lt (by decide)).mp (by decide +kernel)) rfl

end Sys2Proof

namespace Sys2Proof.Machine

/-! ## The frame and the status ports -/

/-- R84: the offsets of a frame around its payload. -/
theorem frameBytes_getElem? {bytes : List Byte} (hlen : bytes.length = Config.blockSize) (n : Byte) (crc : Word16) :
    (∀ k, k < Config.blockSize → (frameBytes n bytes crc)[3 + k]? = bytes[k]?) ∧
      (frameBytes n bytes crc)[131]? = some (crcHigh crc) ∧ (frameBytes n bytes crc)[132]? = some (crcLow crc) := by
  have hbody (k : Nat) : (frameBytes n bytes crc)[3 + k]? = (bytes ++ [crcHigh crc, crcLow crc])[k]? := by
    rw [Nat.add_comm]; rfl
  have htail (k : Nat) : (frameBytes n bytes crc)[3 + (Config.blockSize + k)]? = [crcHigh crc, crcLow crc][k]? := by
    rw [hbody, List.getElem?_append_right (by omega), hlen, Nat.add_sub_cancel_left]
  refine ⟨fun k hk => ?_, htail 0, htail 1⟩
  rw [hbody, List.getElem?_append_left (by omega)]

/-- Settles O19: header, payload and CRC of `frameBytes`, with PBUF's bytes as the payload. -/
theorem frameLayout : Obligations.FrameLayout := by
  intro s bytes hp
  obtain ⟨hpayload, hhigh, hlow⟩ := frameBytes_getElem? (payload_length hp) s.blockNumber s.blockCrc
  exact ⟨_, frame_of_payload hp, frameBytes_length hp _ _, rfl, rfl, rfl, complement_eq_xor _,
    fun k hk => (hpayload k hk).trans (payload_getElem? hp hk), hhigh, hlow⟩

/-- R86: the codes number the states in the order of R20. -/
theorem EngineState.code_toNat (e : EngineState) : e.code.toNat = e.ctorIdx := by
  cases e <;> rfl

theorem EngineState.code_injective : Function.Injective EngineState.code := fun e f h => by
  rw [← EngineState.ofNat_ctorIdx e, ← EngineState.code_toNat, h, EngineState.code_toNat, EngineState.ofNat_ctorIdx]

/-- R87: the codes number the results in the order of R22. -/
theorem SessionResult.code_toNat (r : SessionResult) : r.code.toNat = r.ctorIdx := by
  cases r <;> rfl

theorem SessionResult.code_injective : Function.Injective SessionResult.code := fun r q h => by
  rw [← SessionResult.ofNat_ctorIdx r, ← SessionResult.code_toNat, h, SessionResult.code_toNat,
    SessionResult.ofNat_ctorIdx]

/-- R21: the classes of the states in terms of their codes, and code 7 unused (R92). -/
theorem EngineState.code_classes (e : EngineState) :
    e.code ≠ 7 ∧
      (e.busy = true ↔ e.code = 1 ∨ e.code = 2 ∨ e.code = 3) ∧
      (e.reading = true ↔ e.code = 1 ∨ e.code = 2) ∧
      (e.terminal = true ↔ e.code = 4 ∨ e.code = 5 ∨ e.code = 6) ∧
      (e.idleLike = true ↔ e.busy = false) := by
  cases e <;> decide

theorem SessionResult.code_ne_seven (r : SessionResult) : r.code ≠ 7 := by
  cases r <;> decide

/-- Settles O3: the classes state by state; no two values have the same code, since the codes number them. -/
theorem statusCodes : Obligations.StatusCodes :=
  ⟨EngineState.code_classes, fun _ _ h => EngineState.code_injective h, SessionResult.code_ne_seven,
    fun _ _ h => SessionResult.code_injective h,
    rfl, rfl, rfl, rfl, rfl, rfl, rfl, rfl, rfl, rfl, rfl, rfl, rfl, rfl⟩

end Sys2Proof.Machine

/-! SUPPORT. The obligations of 41_crc.md: the operations of CRGEN (R113 to R118), its ROM (R111, R120), and the algebra
of `computeCRC16` (R119). -/

namespace Sys2Proof.Machine

/-! ## The operations -/

@[simp] theorem exec_crcHold (d : Byte) (s : State) : exec (.crcHold d) s = .next s := rfl
@[simp] theorem exec_crcClear (d : Byte) (s : State) : exec (.crcClear d) s = .next s.crcClear := rfl
@[simp] theorem exec_crcUpdate (d : Byte) (s : State) : exec (.crcUpdate d) s = .next (s.crcUpdate d) := rfl
@[simp] theorem exec_crcRsv (d : Byte) (s : State) : exec (.crcRsv d) s = .refused .reservedCrcOp := rfl

/-- Settles O4: HOLD's meaning is the state it is given. -/
theorem crcHoldKeepsEverything : Obligations.CrcHoldKeepsEverything := exec_crcHold

/-- Settles O5: `CrcClear` writes the initial value of R10, which is zero. -/
theorem crcClearZeroesRunningValue : Obligations.CrcClearZeroesRunningValue := exec_crcClear

/-- Settles O7: the meaning of the reserved operation is the refusal. -/
theorem crcReservedOpRefused : Obligations.CrcReservedOpRefused := exec_crcRsv

/-- R112: the shift drops the high byte, so it may as well be masked off before. -/
theorem shiftLeft_eight_eq_low (r : Word16) : r <<< 8 = (r.extractLsb' 0 8).setWidth 16 <<< 8 := by
  apply BitVec.eq_of_toNat_eq
  simp only [BitVec.toNat_shiftLeft, BitVec.toNat_setWidth, BitVec.extractLsb'_toNat, Nat.shiftLeft_eq,
    Nat.shiftRight_zero]
  omega

/-- R112: the shift moves the low byte up. -/
theorem extractLsb'_high_shiftLeft_eight (r : Word16) : (r <<< 8).extractLsb' 8 8 = r.extractLsb' 0 8 := by
  apply BitVec.eq_of_toNat_eq
  simp only [BitVec.toNat_shiftLeft, BitVec.extractLsb'_toNat, Nat.shiftLeft_eq, Nat.shiftRight_eq_div_pow]
  omega

/-- R115's formula is the model's step. -/
theorem crcStep_eq_formula :
    crcStep = fun (r : Word16) b => ((r.extractLsb' 0 8).setWidth 16 <<< 8) ^^^ romRead (r.extractLsb' 8 8 ^^^ b) := by
  funext r b
  rw [crcStep, crcIndex, shiftLeft_eight_eq_low]

/-- Settles O6, from R112's equivalence of the two formulas. -/
theorem crcUpdateFormula : Obligations.CrcUpdateFormula := by
  intro d s
  rw [exec_crcUpdate, State.crcUpdate, crcStep_eq_formula]

theorem execAll_cons_of_next {i : Instr} {s t : State} (h : exec i s = .next t) (is : List Instr) :
    execAll (i :: is) s = execAll is t := by
  rw [execAll, h]

/-- R115: UPDATEs one after another are the fold of `CrcUpdate`. -/
theorem execAll_crcUpdate (bs : List Byte) (s : State) :
    execAll (bs.map .crcUpdate) s = .next (bs.foldl (fun u b => u.crcUpdate b) s) := by
  induction bs generalizing s with
  | nil => rfl
  | cons b bs ih => rw [List.map_cons, execAll_cons_of_next (exec_crcUpdate b s), ih, List.foldl_cons]

/-- Settles O10, by induction on the bytes: UPDATEs fold `CrcUpdate`, and that writes `crc_r` only. -/
theorem crcSequenceComputesFunction : Obligations.CrcSequenceComputesFunction := by
  unfold Obligations.CrcSequenceComputesFunction
  rw [← crcStep_eq_formula]
  refine ⟨fun bs d s => ?_, fun _ => rfl, rfl⟩
  calc execAll (.crcClear d :: bs.map .crcUpdate) s
      = execAll (bs.map .crcUpdate) s.crcClear := execAll_cons_of_next (exec_crcClear d s) _
    _ = .next (bs.foldl (fun u b => u.crcUpdate b) s.crcClear) := execAll_crcUpdate bs _
    _ = .next { s with crcR := computeCRC16 bs } := congrArg _ (foldl_crcUpdate bs _)

/-! ## The ROM -/

/-- R111, R120: each entry of the table, looked up and constructed. -/
theorem romRead_eq_crcTableEntry : ∀ i : Byte, romRead i = crcTableEntry i := by
  decide +kernel

/-- Settles O8, entry by entry. -/
theorem crcRomIsConstruction : Obligations.CrcRomIsConstruction := romRead_eq_crcTableEntry

theorem romRead_zero : romRead 0#8 = 0#16 := rfl

/-- R120: a step shifts, and adds the polynomial if the top bit says so. -/
theorem crcTableShift_eq_xor_ite (c : Word16) :
    crcTableShift c = c <<< 1 ^^^ if c.getLsbD 15 then Config.crcPolynomial else 0 := by
  rw [crcTableShift]
  split
  · rfl
  · exact BitVec.xor_zero.symm

/-- A word that one bit switches on is linear in the bit: switched on twice it cancels. -/
theorem ite_xor_bit (p : Word16) (a b : Bool) :
    (if a ^^ b then p else 0) = (if a then p else 0) ^^^ if b then p else 0 := by
  cases a <;> cases b <;> simp

/-- R120: both parts of a step are linear. -/
theorem crcTableShift_xor (a b : Word16) : crcTableShift (a ^^^ b) = crcTableShift a ^^^ crcTableShift b := by
  simp only [crcTableShift_eq_xor_ite, BitVec.getLsbD_xor, BitVec.shiftLeft_xor_distrib, ite_xor_bit]
  ac_rfl

theorem crcTableEntry_xor (a b : Byte) : crcTableEntry (a ^^^ b) = crcTableEntry a ^^^ crcTableEntry b := by
  simp only [crcTableEntry, BitVec.setWidth_xor, BitVec.shiftLeft_xor_distrib, crcTableShift_xor]

/-- R111: the table is linear since its construction is. -/
theorem romRead_xor (a b : Byte) : romRead (a ^^^ b) = romRead a ^^^ romRead b := by
  simp only [romRead_eq_crcTableEntry, crcTableEntry_xor]

/-- Settles O9: the entries and their sum by computation, linearity from the construction. -/
theorem crcRomChecks : Obligations.CrcRomChecks :=
  ⟨rfl, rfl, rfl, rfl, by decide +kernel, romRead_xor⟩

/-! ## The algebra of the CRC -/

theorem computeCRC16_append (as bs : List Byte) :
    computeCRC16 (as ++ bs) = bs.foldl crcStep (computeCRC16 as) :=
  List.foldl_append

/-- An update is linear in the running value and the byte together. -/
theorem crcStep_xor (r q : Word16) (a b : Byte) : crcStep (r ^^^ q) (a ^^^ b) = crcStep r a ^^^ crcStep q b := by
  have hindex : crcIndex (r ^^^ q) (a ^^^ b) = crcIndex r a ^^^ crcIndex q b := by
    simp only [crcIndex, BitVec.extractLsb'_xor]; ac_rfl
  simp only [crcStep, hindex, romRead_xor, BitVec.shiftLeft_xor_distrib]
  ac_rfl

/-- R115: from zero an update gives the ROM entry of its byte. -/
@[simp] theorem crcStep_zero (d : Byte) : crcStep 0 d = romRead d := by
  simp [crcStep, crcIndex]

/-- An update with the register's own high byte uses entry 0, so it only shifts. -/
theorem crcStep_high (r : Word16) : crcStep r (r.extractLsb' 8 8) = r <<< 8 := by
  rw [crcStep, crcIndex, BitVec.xor_self, romRead_zero, BitVec.xor_zero]

/-- R119, residue: the high byte of a register shifts it, and its low byte is the high byte of what is left. -/
theorem crcStep_high_low (r : Word16) : crcStep (crcStep r (r.extractLsb' 8 8)) (r.extractLsb' 0 8) = 0 := by
  rw [crcStep_high, ← extractLsb'_high_shiftLeft_eight, crcStep_high, ← BitVec.shiftLeft_add]
  exact BitVec.shiftLeft_eq_zero (by decide)

/-- R119, linearity, from any two running values. -/
theorem foldl_crcStep_zipWith_xor {as bs : List Byte} (h : as.length = bs.length) (r q : Word16) :
    (List.zipWith (· ^^^ ·) as bs).foldl crcStep (r ^^^ q) = as.foldl crcStep r ^^^ bs.foldl crcStep q := by
  induction as generalizing bs r q with
  | nil => cases List.length_eq_zero_iff.mp h.symm; rfl
  | cons a as ih =>
    cases bs with
    | nil => cases h
    | cons b bs =>
      rw [List.zipWith_cons_cons, List.foldl_cons, crcStep_xor, ih (Nat.succ.inj h)]
      rfl

/-- Settles O11: each property from the step it rests on. -/
theorem crcDerivedProperties : Obligations.CrcDerivedProperties := by
  refine ⟨fun bs => ?_, fun bs => ?_, fun as bs h => ?_, crcStep_zero⟩
  · rw [computeCRC16_append]; exact crcStep_high_low _
  · exact congrArg (bs.foldl crcStep) (crcStep_zero 0)
  · exact foldl_crcStep_zipWith_xor h 0 0

end Sys2Proof.Machine

/-! SUPPORT. The obligations of 42_engine.md: START and the rows of the transition table (R130 to R143). -/

namespace Sys2Proof.Machine

/-! ## START (R130, R131) -/

section
variable {s : State}

theorem idleLike_iff_not_busy (e : EngineState) : e.idleLike = true ↔ e.busy = false := by
  obtain ⟨-, -, -, -, h⟩ := EngineState.code_classes e
  exact h

/-- R131: START where it is accepted. -/
theorem exec_hostStart_idleLike (h : s.state.idleLike = true) (run : Bool) (maxRetry : Byte) (size : Word32) :
    exec (.hostStart .notFound run maxRetry size) s = .next (s.enterFailed .sourceNotFound) ∧
    exec (.hostStart .openFailed run maxRetry size) s = .next (s.enterFailed .sourceOpenFailed) ∧
    exec (.hostStart .ok run maxRetry size) s = .next (s.startSession run maxRetry size) :=
  ⟨if_pos h, if_pos h, if_pos h⟩

/-- R130: START where it is refused. -/
theorem exec_hostStart_busy (h : s.state.busy = true) (status : SrcStatus) (run : Bool) (maxRetry : Byte)
    (size : Word32) : exec (.hostStart status run maxRetry size) s = .refused .startWhileBusy :=
  if_neg (by simp [not_idleLike_of_busy h])

end

/-- Settles O21: the three arms of START in a state that accepts it. -/
theorem startOpensSession : Obligations.StartOpensSession :=
  fun _ run maxRetry size h => exec_hostStart_idleLike h run maxRetry size

/-- Settles O22: a state that is not busy is idle-like, and there START has a next state. -/
theorem startRefusals : Obligations.StartRefusals := by
  refine ⟨fun s status run maxRetry size => ⟨fun href => ?_, fun h => exec_hostStart_busy h ..⟩, fun _ _ _ _ => rfl⟩
  by_contra hbusy
  have hidle : s.state.idleLike = true := (idleLike_iff_not_busy _).mpr (Bool.eq_false_of_not_eq_true hbusy)
  obtain ⟨hnotFound, hopenFailed, hok⟩ := exec_hostStart_idleLike hidle run maxRetry size
  cases status with
  | ok => rw [hok] at href; cases href
  | notFound => rw [hnotFound] at href; cases href
  | openFailed => rw [hopenFailed] at href; cases href

/-! ## Symbols that transmit nothing -/

/-- Settles O25: each of these rows has its effect in the other reading state only. -/
theorem ignoredSymbolsChangeNothing : Obligations.IgnoredSymbolsChangeNothing := by
  refine fun s => ⟨fun hs => ?_, fun hs => ⟨?_, ?_⟩, fun _ _ => rfl⟩
  · rw [exec_rxHandshake, if_neg (by simp [hs])]
  · rw [exec_rxAck, if_neg (by simp [hs])]
  · rw [exec_rxNak, if_neg (by simp [hs])]

/-- Settles O26: every row asks for a reading state, or for one of the two. -/
theorem unreadSymbolsChangeNothing : Obligations.UnreadSymbolsChangeNothing := by
  intro s hr
  have hread : ¬s.state.reading = true := by simp [hr]
  have hstart : s.state ≠ .awaitingStart := fun hs => by rw [hs] at hr; cases hr
  have hsending : s.state ≠ .sendingBlock := fun hs => by rw [hs] at hr; cases hr
  rw [exec_rxHandshake, exec_rxAck, exec_rxNak, exec_rxCan, exec_rxFail]
  exact ⟨if_neg hstart, if_neg hsending, if_neg hsending, if_neg hread, fun _ => rfl, if_neg hread⟩

/-- Settles O31: the arm of CAN in a reading state. -/
theorem canCancels : Obligations.CanCancels := fun s hr => by
  rw [exec_rxCan, if_pos hr]; rfl

/-- Settles O32: the arm of a failed read in a reading state. -/
theorem readFailureFails : Obligations.ReadFailureFails := fun s hr => by
  rw [exec_rxFail, if_pos hr]; rfl

/-! ## Terminations -/

theorem writesOk_mono {s : State} {m n : Nat} (hmn : m ≤ n) (h : s.writesOk n = true) : s.writesOk m = true := by
  simp only [State.writesOk, List.all_eq_true] at h ⊢
  exact fun a ha => h a (List.take_subset_take_left _ hmn ha)

/-- R29: in a queue of `ok` every write is answered `ok`. -/
theorem writesOk_of_forall_ok {s : State} (h : ∀ a ∈ s.txAnswers, a = .ok) (n : Nat) : s.writesOk n = true := by
  simp only [State.writesOk, List.all_eq_true, beq_iff_eq]
  exact fun a ha => h a (List.mem_of_mem_take ha)

theorem terminationUnits_length (s : State) : s.terminationUnits.length = if s.runFlag then 2 else 1 := by
  cases hr : s.runFlag <;> simp [State.terminationUnits, State.runUnits, hr]

theorem map_terminationUnits (s : State) : s.terminationUnits.map Output.wire =
    if s.runFlag then [.wire [0x04], .wire [s.runByte]] else [.wire [0x04]] := by
  cases hr : s.runFlag <;> simp [State.terminationUnits, State.runUnits, hr, Wire.eot]

/-- R142: the state after a termination, written out. -/
theorem terminated_eq (s : State) : s.terminated = { s with
    state := .done
    result := .success
    txAnswers := s.txAnswers.drop (if s.runFlag then 2 else 1)
    outputs := s.outputs ++ (if s.runFlag then [.wire [0x04], .wire [s.runByte]] else [.wire [0x04]]) } := by
  rw [State.terminated, terminationUnits_length, map_terminationUnits]

/-- R142: a termination makes two writes at most. -/
theorem enterTermination_of_writesOk {s : State} (h : s.writesOk 2 = true) : enterTermination s = .go s.terminated := by
  refine enterTermination_ok (writesOk_mono ?_ h)
  rw [terminationUnits_length]
  split <;> decide

/-- R29: a failed write of one byte delivers none. -/
theorem strictPrefix_singleton (k : Nat) (b : Byte) : strictPrefix k [b] = [] := by
  simp [strictPrefix]

/-- Settles O39: the writes of a termination in order, the first that fails ending it. -/
theorem terminationOutcomes : Obligations.TerminationOutcomes := by
  refine fun s => ⟨fun h => ?_, fun k h => ?_, fun k hr h h' => ?_⟩
  · rw [enterTermination_of_writesOk h, terminated_eq]; rfl
  · rw [enterTermination_eq, txWrite_txfail (s := s.enterTerminationAck) _ h, strictPrefix_singleton]; rfl
  · have hrun : (s.enterTerminationAck.popAnswer.emit (.wire [Wire.eot])).runFlag = true := hr
    have hanswer : (s.enterTerminationAck.popAnswer.emit (.wire [Wire.eot])).nextAnswer = .txfail k := h'
    rw [enterTermination_eq, txWrite_ok (s := s.enterTerminationAck) _ h, Flow.andThen_go, RowPart.run_sendRun,
      sendRun_eq, if_pos hrun, txWrite_txfail _ hanswer, strictPrefix_singleton, ← List.tail_drop]
    simp [State.emit, State.popAnswer, State.enterTerminationAck, Wire.eot]

/-! ## The rows that transmit -/

/-- R170, R176: the block named by the registers, loaded and attempted with its write answered `ok`. -/
def State.sentBlock (s : State) : State :=
  s.loaded.enterSending.sentFrame (frameBytes s.blockNumber
    (blockPayload s.source s.fileSize.toNat s.srcPos.toNat)
    (computeCRC16 (blockPayload s.source s.fileSize.toNat s.srcPos.toNat)))

section
variable {s : State}

theorem enterSending_of_sending (h : s.state = .sendingBlock) : s.enterSending = s := by
  rw [State.enterSending, ← h]

theorem sendFrame_loaded (h : s.nextAnswer = .ok) : sendFrame s.loaded.enterSending = .go s.sentBlock :=
  sendFrame_ok (s := s.loaded.enterSending) (payload_loaded s) h

theorem beginTransfer_empty (h : s.fileSize = 0) : beginTransfer s = enterTermination (s.rewind.setEof true) :=
  if_pos h

theorem beginTransfer_block (h : s.fileSize ≠ 0) (hm : s.pbuf.wf .pbuf = true) :
    beginTransfer s = sendFrame (s.rewind.setEof false).loaded.enterSending := by
  rw [beginTransfer, if_neg h, loadBlock_canonical (s := s.rewind.setEof false) hm]; rfl

theorem acknowledgeBlock_exhausted (h : s.fileSize.toNat ≤ s.advanceBlock.srcPos.toNat) :
    acknowledgeBlock s = enterTermination (s.advanceBlock.setEof true) :=
  if_pos (decide_eq_true h)

theorem acknowledgeBlock_block (h : s.advanceBlock.srcPos.toNat < s.fileSize.toNat) (hm : s.pbuf.wf .pbuf = true) :
    acknowledgeBlock s = sendFrame s.advanceBlock.loaded := by
  have hleft : ¬s.advanceBlock.sourceExhausted = true := by simpa [State.sourceExhausted] using h
  rw [acknowledgeBlock, if_neg hleft, loadBlock_canonical (s := s.advanceBlock) hm]; rfl

theorem retryBlock_spent (h : s.maxRetryL.toNat ≤ s.currentTry.toNat) :
    retryBlock s = .ended (s.enterFailed .retryLimitExceeded) :=
  if_pos h

theorem retryBlock_retries (h : s.currentTry.toNat < s.maxRetryL.toNat) :
    retryBlock s = sendFrame s.countRetry :=
  if_neg (Nat.not_le_of_lt h)

/-- R139: within the budget the retry count does not wrap. -/
theorem countRetry_toNat (h : s.currentTry.toNat < s.maxRetryL.toNat) :
    s.countRetry.currentTry.toNat = s.currentTry.toNat + 1 := by
  have hmax := s.maxRetryL.isLt
  have hlt : s.currentTry.toNat + 1 < 2 ^ 8 := by omega
  rw [State.countRetry_currentTry, BitVec.toNat_add]
  exact Nat.mod_eq_of_lt hlt

end

/-! ### The handshake (R135) -/

section
variable {s : State} (hs : s.state = .awaitingStart)
include hs

theorem exec_rxHandshake_awaiting : exec .rxHandshake s = (beginTransfer s).outcome := by
  rw [exec_rxHandshake, if_pos hs]

theorem exec_rxHandshake_empty (hz : s.fileSize = 0) (hok : s.writesOk 2 = true) :
    exec .rxHandshake s = .next (s.rewind.setEof true).terminated := by
  rw [exec_rxHandshake_awaiting hs, beginTransfer_empty hz,
    enterTermination_of_writesOk (s := s.rewind.setEof true) hok]
  rfl

theorem exec_rxHandshake_block (hz : s.fileSize ≠ 0) (hm : s.pbuf.wf .pbuf = true) (hok : s.nextAnswer = .ok) :
    exec .rxHandshake s = .next (s.rewind.setEof false).sentBlock := by
  rw [exec_rxHandshake_awaiting hs, beginTransfer_block hz hm, sendFrame_loaded (s := s.rewind.setEof false) hok]
  rfl

end

/-- Settles O23: the load of block 1 is written out by `State.loaded`. -/
theorem handshakeRow : Obligations.HandshakeRow := by
  refine fun s hs hm => ⟨fun hz => ?_, fun hz => ?_⟩
  · rw [exec_rxHandshake_awaiting hs, beginTransfer_empty hz]; rfl
  · rw [exec_rxHandshake_awaiting hs, beginTransfer_block hz hm]; rfl

/-- Settles O24: the termination of an empty source, or the attempt at block 1, each with its writes answered `ok`. -/
theorem handshakeCompletes : Obligations.HandshakeCompletes := by
  refine fun s hs hm hok => ⟨fun hz => ?_, fun hz => ?_⟩
  · rw [exec_rxHandshake_empty hs hz hok, terminated_eq]; rfl
  · rw [exec_rxHandshake_block hs hz hm (nextAnswer_of_writesOk hok)]; rfl

/-! ### ACK and NAK (R138, R139) -/

section
variable {s : State} (hs : s.state = .sendingBlock)
include hs

theorem exec_rxAck_sending : exec .rxAck s = (acknowledgeBlock s).outcome := by
  rw [exec_rxAck, if_pos hs]

theorem exec_rxAck_exhausted (hend : s.fileSize.toNat ≤ s.advanceBlock.srcPos.toNat) (hok : s.writesOk 2 = true) :
    exec .rxAck s = .next (s.advanceBlock.setEof true).terminated := by
  rw [exec_rxAck_sending hs, acknowledgeBlock_exhausted hend,
    enterTermination_of_writesOk (s := s.advanceBlock.setEof true) hok]
  rfl

theorem exec_rxAck_block (hleft : s.advanceBlock.srcPos.toNat < s.fileSize.toNat) (hm : s.pbuf.wf .pbuf = true)
    (hok : s.nextAnswer = .ok) : exec .rxAck s = .next s.advanceBlock.sentBlock := by
  have hsending : s.advanceBlock.loaded.enterSending = s.advanceBlock.loaded := enterSending_of_sending hs
  rw [exec_rxAck_sending hs, acknowledgeBlock_block hleft hm, ← hsending, sendFrame_loaded (s := s.advanceBlock) hok]
  rfl

theorem exec_rxNak_sending : exec .rxNak s = (retryBlock s).outcome := by
  rw [exec_rxNak, if_pos hs]

theorem exec_rxNak_spent (h : s.maxRetryL.toNat ≤ s.currentTry.toNat) :
    exec .rxNak s = .next (s.enterFailed .retryLimitExceeded) := by
  rw [exec_rxNak_sending hs, retryBlock_spent h]; rfl

/-- R139: a retransmission sends the frame of the registers, which the retry count is no part of. -/
theorem exec_rxNak_retries {bytes : List Byte} (h : s.currentTry.toNat < s.maxRetryL.toNat)
    (hp : payload s = some bytes) (hok : s.nextAnswer = .ok) :
    exec .rxNak s = .next (s.countRetry.sentFrame (frameBytes s.blockNumber bytes s.blockCrc)) := by
  rw [exec_rxNak_sending hs, retryBlock_retries h, sendFrame_ok (s := s.countRetry) hp hok]; rfl

end

/-- Settles O27: the advanced registers are those of `State.advanceBlock`, and the next block's those of
`State.loaded`. -/
theorem ackRow : Obligations.AckRow := by
  refine fun s hs hm => ⟨fun hend => ?_, fun hleft => ?_⟩
  · rw [exec_rxAck_sending hs, acknowledgeBlock_exhausted hend]; rfl
  · rw [exec_rxAck_sending hs, acknowledgeBlock_block hleft hm]; rfl

/-- Settles O28: the termination of an exhausted source, or the attempt at the next block, each with its writes answered
`ok`. -/
theorem ackCompletes : Obligations.AckCompletes := by
  refine fun s hs hm hok => ⟨fun hend => ?_, fun hleft => ?_⟩
  · rw [exec_rxAck_exhausted hs hend hok, terminated_eq]; rfl
  · have hsending : s.advanceBlock.loaded.enterSending = s.advanceBlock.loaded := enterSending_of_sending hs
    rw [exec_rxAck_block hs hleft hm (nextAnswer_of_writesOk hok), State.sentBlock, hsending]; rfl

/-- Settles O29: the frame is built from registers that the retry count is none of. -/
theorem nakRow : Obligations.NakRow := by
  refine fun s hs => ⟨fun h => exec_rxNak_spent hs h, fun h => ⟨?_, rfl, countRetry_toNat h⟩⟩
  rw [exec_rxNak_sending hs, retryBlock_retries h]; rfl

/-- Settles O30: the attempt of a retransmission with its write answered `ok`. -/
theorem nakCompletes : Obligations.NakCompletes :=
  fun _ _ hs hp hok h => exec_rxNak_retries hs h hp (nextAnswer_of_writesOk hok)

end Sys2Proof.Machine

/-! SUPPORT. The obligations of 42_engine.md: the transition table where the transport answers (R134), and what happens
outside a session (R133). -/

namespace Sys2Proof.Machine

/-! ## Rows whose writes are all answered -/

/-- R203: from `s` to `t`, a write answered `txfail` ends the session. -/
def WriteFailed (s t : State) : Prop :=
  t.state = .failed ∧ t.result = .transportFailure ∧ ∃ k, QueueUsed (.txfail k) s t

/-- R176: an answered block attempt sends its frame or fails. -/
theorem sendFrame_answered_next {s t : State} (h : (sendFrame s).outcome = .next t)
    (hans : ∀ a ∈ s.txAnswers, a.isAnswer = true) :
    (∃ bytes, t = s.sentFrame (frameBytes s.blockNumber bytes s.blockCrc)) ∨ WriteFailed s t := by
  have hnext := nextAnswer_of_forall (p := fun a => a.isAnswer = true) rfl hans
  obtain ⟨bytes, _, ⟨_, ht⟩ | ⟨k, ha, rfl⟩ | ⟨k, ha, _⟩ | ⟨ha, _⟩⟩ := sendFrame_next h
  · exact .inl ⟨bytes, ht⟩
  · exact .inr ⟨rfl, rfl, k, 0, rfl, nextAnswer_head ha (by simp), List.drop_one.symm⟩
  · rw [ha] at hnext; cases hnext
  · rw [ha] at hnext; cases hnext

/-- R142: an answered termination completes or fails. -/
theorem enterTermination_answered_next {s t : State} (h : (enterTermination s).outcome = .next t)
    (hans : ∀ a ∈ s.txAnswers, a.isAnswer = true) : t = s.terminated ∨ WriteFailed s t := by
  rcases enterTermination_next h with ht | ⟨k, n, ha, hok, o, rfl, _⟩ | ⟨k, n, hcut, _⟩ | ⟨hpend, _⟩
  · exact .inl ht
  · exact .inr ⟨rfl, rfl, k, n, hok, ha, rfl⟩
  · cases hans _ (List.mem_of_getElem? hcut)
  · cases hans _ hpend

section
variable {s t : State} (hans : ∀ a ∈ s.txAnswers, a.isAnswer = true)
include hans

/-- R135: everything an answered handshake can have done in AWAITING_START. -/
theorem execRxHandshake_answered (hs : s.state = .awaitingStart) (h : exec .rxHandshake s = .next t) :
    (s.fileSize ≠ 0 ∧ t.state = .sendingBlock) ∨ (s.fileSize = 0 ∧ t = (s.rewind.setEof true).terminated) ∨
      WriteFailed s t := by
  rcases execRxHandshake_next h with ⟨hne, _⟩ | ⟨_, hz, h⟩ | ⟨_, hz, h⟩
  · exact absurd hs hne
  · exact .inr ((enterTermination_answered_next h hans).imp_left fun ht => ⟨hz, ht⟩)
  · obtain ⟨c, p, r, hload⟩ := loadBlock_frame (s.rewind.setEof false)
    rw [hload, Flow.andThen_go, RowPart.run_enterSending, Flow.andThen_go, RowPart.run_sendFrame] at h
    rcases sendFrame_answered_next h hans with ⟨bytes, rfl⟩ | hfailed
    · exact .inl ⟨hz, rfl⟩
    · exact .inr (.inr hfailed)

/-- R138: everything an answered ACK can have done in SENDING_BLOCK. -/
theorem execRxAck_answered (hs : s.state = .sendingBlock) (h : exec .rxAck s = .next t) :
    (s.advanceBlock.srcPos.toNat < s.fileSize.toNat ∧ ∃ c p r f,
      t = { s.advanceBlock with chunkLen := c, pbuf := p, crcR := r, blockCrc := r }.sentFrame f) ∨
    (s.fileSize.toNat ≤ s.advanceBlock.srcPos.toNat ∧ t = (s.advanceBlock.setEof true).terminated) ∨
    WriteFailed s t := by
  rcases execRxAck_next h with ⟨hne, _⟩ | ⟨_, hend, h⟩ | ⟨_, hleft, h⟩
  · exact absurd hs hne
  · exact .inr ((enterTermination_answered_next h hans).imp_left fun ht => ⟨hend, ht⟩)
  · obtain ⟨c, p, r, hload⟩ := loadBlock_frame s.advanceBlock
    rw [hload, Flow.andThen_go, RowPart.run_sendFrame] at h
    rcases sendFrame_answered_next h hans with ⟨bytes, rfl⟩ | hfailed
    · exact .inl ⟨hleft, c, p, r, _, rfl⟩
    · exact .inr (.inr hfailed)

/-- R139: everything an answered NAK can have done in SENDING_BLOCK. -/
theorem execRxNak_answered (hs : s.state = .sendingBlock) (h : exec .rxNak s = .next t) :
    (s.currentTry.toNat < s.maxRetryL.toNat ∧ ∃ f, t = s.countRetry.sentFrame f) ∨
    (s.maxRetryL.toNat ≤ s.currentTry.toNat ∧ t = s.enterFailed .retryLimitExceeded) ∨ WriteFailed s t := by
  rcases execRxNak_next h with ⟨hne, _⟩ | ⟨_, hspent, ht⟩ | ⟨_, hlt, h⟩
  · exact absurd hs hne
  · exact .inr (.inl ⟨hspent, ht⟩)
  · rcases sendFrame_answered_next h hans with ⟨bytes, ht⟩ | hfailed
    · exact .inl ⟨hlt, _, ht⟩
    · exact .inr (.inr hfailed)

/-- R134: the rows of AWAITING_START. -/
theorem awaitingStart_rows (hs : s.state = .awaitingStart) :
    (∀ t, exec .rxHandshake s = .next t →
      t.state = .sendingBlock ∧ s.fileSize ≠ 0 ∨ t.state = .done ∧ s.fileSize = 0 ∨ WriteFailed s t) ∧
    (∀ t, exec .rxAck s = .next t → t.state = .awaitingStart) ∧
    (∀ t, exec .rxNak s = .next t → t.state = .awaitingStart) := by
  refine ⟨fun t h => ?_, fun t h => ?_, fun t h => ?_⟩
  · rcases execRxHandshake_answered hans hs h with ⟨hz, ht⟩ | ⟨hz, rfl⟩ | hfailed
    · exact .inl ⟨ht, hz⟩
    · exact .inr (.inl ⟨rfl, hz⟩)
    · exact .inr (.inr hfailed)
  · rw [exec_rxAck, if_neg (by simp [hs])] at h; cases h; exact hs
  · rw [exec_rxNak, if_neg (by simp [hs])] at h; cases h; exact hs

/-- R134: the rows of SENDING_BLOCK. -/
theorem sendingBlock_rows (hs : s.state = .sendingBlock) :
    (∀ t, exec .rxHandshake s = .next t → t.state = .sendingBlock) ∧
    (∀ t, exec .rxAck s = .next t →
      t.state = .sendingBlock ∧ t.srcPos.toNat < t.fileSize.toNat ∨
      t.state = .done ∧ t.fileSize.toNat ≤ t.srcPos.toNat ∨ WriteFailed s t) ∧
    (∀ t, exec .rxNak s = .next t →
      t.state = .sendingBlock ∧ s.currentTry.toNat < s.maxRetryL.toNat ∨
      t.state = .failed ∧ t.result = .retryLimitExceeded ∧ s.maxRetryL.toNat ≤ s.currentTry.toNat ∨
      WriteFailed s t) := by
  refine ⟨fun t h => ?_, fun t h => ?_, fun t h => ?_⟩
  · rw [exec_rxHandshake, if_neg (by simp [hs])] at h; cases h; exact hs
  · rcases execRxAck_answered hans hs h with ⟨hleft, c, p, r, f, rfl⟩ | ⟨hend, rfl⟩ | hfailed
    · exact .inl ⟨hs, hleft⟩
    · exact .inr (.inl ⟨rfl, hend⟩)
    · exact .inr (.inr hfailed)
  · rcases execRxNak_answered hans hs h with ⟨hlt, f, rfl⟩ | ⟨hspent, rfl⟩ | hfailed
    · exact .inl ⟨hs, hlt⟩
    · exact .inr (.inl ⟨rfl, rfl, hspent⟩)
    · exact .inr (.inr hfailed)

end

/-- R134: the rows that are the same in both reading states; the byte of RX_OTHER is dropped. -/
theorem reading_rows {s : State} (hr : s.state.reading = true) :
    (∀ t, exec .rxCan s = .next t → t.state = .cancelled) ∧
    (∀ t b, exec (.rxOther b) s = .next t → t.state = s.state) ∧
    (∀ t, exec .rxFail s = .next t → t.state = .failed ∧ t.result = .transportFailure) := by
  refine ⟨fun t h => ?_, fun t b h => ?_, fun t h => ?_⟩
  · rw [canCancels s hr] at h; cases h; rfl
  · cases h; rfl
  · rw [readFailureFails s hr] at h; cases h; exact ⟨rfl, rfl⟩

/-- Settles O33: row by row, each write answered `ok` or `txfail`. -/
theorem transitionTable : Obligations.TransitionTable := by
  refine fun s hans => ⟨fun hs => ?_, fun hs => ?_⟩
  · obtain ⟨hhandshake, hack, hnak⟩ := awaitingStart_rows hans hs
    obtain ⟨hcan, hother, hfail⟩ := reading_rows (s := s) (by rw [hs]; rfl)
    exact ⟨hhandshake, hack, hnak, hcan, fun t b h => (hother t b h).trans hs, hfail⟩
  · obtain ⟨hhandshake, hack, hnak⟩ := sendingBlock_rows hans hs
    obtain ⟨hcan, hother, hfail⟩ := reading_rows (s := s) (by rw [hs]; rfl)
    exact ⟨hhandshake, hack, hnak, hcan, fun t b h => (hother t b h).trans hs, hfail⟩

/-! ## Outside a session (R133) -/

theorem not_reading_of_idleLike {e : EngineState} (h : e.idleLike = true) : e.reading = false := by
  revert h; cases e <;> decide

theorem execDecodeHost_inputs {w : HostWord} {s t : State} (h : exec (decodeHost w) s = .next t) :
    t.inputs = s.inputs := by
  rcases decodeHost_cases w with ⟨st, run, maxRetry, size, hw⟩ | ⟨run, maxRetry, size, hw⟩ <;> rw [hw] at h
  · obtain ⟨-, ⟨_, rfl⟩ | ⟨_, rfl⟩ | ⟨_, rfl⟩⟩ := execHostStart_next h <;> rfl
  · cases h

/-- Settles O34: by cases of what the step takes, which outside a session is never an answer to a read. -/
theorem idleChangesNothing : Obligations.IdleChangesNothing := by
  intro s t hidle hblocked hext h
  have hr := not_reading_of_idleLike hidle
  have hpending {i : Input} {rest : List Input} : takeInput s.accepts s.inputs = some (i, rest) →
      rxPending rest = rxPending s.inputs :=
    takeInput_rxPending fun a => by simp [State.accepts, hr]
  rcases step_next h with ⟨_, rfl⟩ | ⟨i, rest, htake, ⟨a, _, hread, _⟩ | ⟨a, _, _, rfl⟩ | ⟨a, w, _, hw, _⟩ |
    ⟨w, m, rfl, _, he⟩ | ⟨rfl, rfl⟩ | ⟨b, _, _, rfl⟩ | ⟨w, rfl, _, _⟩ | ⟨b, rfl, _, _⟩⟩
  · exact ⟨rfl, rfl, fun _ _ => rfl⟩
  · rw [hr] at hread; cases hread
  · exact ⟨rfl, hpending htake, fun _ _ => rfl⟩
  · rw [hblocked] at hw; cases hw
  · have hinputs : t.inputs = rest := execDecodeHost_inputs he
    exact ⟨(execDecodeHost_next he).2.2, hinputs ▸ hpending htake, fun hhost _ => absurd htake (hhost w m rest)⟩
  · exact ⟨rfl, hpending htake, fun _ hreset => absurd htake (hreset rest)⟩
  · exact ⟨rfl, hpending htake, fun _ _ => rfl⟩
  · cases hext _ (takeInput_mem htake).2.1
  · cases hext _ (takeInput_mem htake).2.1

end Sys2Proof.Machine

/-! SUPPORT. The obligations of 42_engine.md: whole sessions, by induction over blocks, retries and inputs (R139,
R144). -/

namespace Sys2Proof.Machine

theorem nextAnswer_of_forall_ok {s : State} (h : ∀ a ∈ s.txAnswers, a = .ok) : s.nextAnswer = .ok :=
  nextAnswer_of_forall (p := (· = .ok)) rfl h

/-- R132: in a reading state the byte that comes next is read, and runs the row of its class. -/
theorem step_of_peerSends {s : State} {b : Byte} {i : Instr} {rest : List Input} (hr : s.state.reading = true)
    (hb : s.blockedWrite = none) (hi : s.inputs = peerSends b :: rest) (hd : decodeRx b = i) :
    step s = exec i { s with inputs := rest } :=
  hd ▸ step_of_byte hr hb hi

/-! ## A retry budget spent (R139) -/

/-- R139: the state once the frame of `bytes` has been sent once more, with the inputs `rest` to come. -/
def State.retried (s : State) (bytes : List Byte) (rest : List Input) : State :=
  ({ s with inputs := rest } : State).countRetry.sentFrame (frameBytes s.blockNumber bytes s.blockCrc)

section
variable {s : State} {bytes : List Byte} {rest : List Input} (hs : s.state = .sendingBlock)
  (hb : s.blockedWrite = none) (hi : s.inputs = peerSends 0x15 :: rest)
include hs hb hi

theorem step_of_nak : step s = exec .rxNak { s with inputs := rest } :=
  step_of_peerSends (by rw [hs]; rfl) hb hi rfl

/-- R139: a NAK with the budget spent ends the session. -/
theorem step_nak_spent (hspent : s.currentTry = s.maxRetryL) :
    step s = .next (({ s with inputs := rest } : State).enterFailed .retryLimitExceeded) :=
  (step_of_nak hs hb hi).trans (exec_rxNak_spent (s := { s with inputs := rest }) hs (hspent ▸ Nat.le_refl _))

/-- R139: a NAK within the budget sends the frame once more. -/
theorem step_nak_retries (hp : payload s = some bytes) (hok : ∀ a ∈ s.txAnswers, a = .ok)
    (hlt : s.currentTry.toNat < s.maxRetryL.toNat) :
    step s = .next (s.retried bytes rest) :=
  (step_of_nak hs hb hi).trans
    (exec_rxNak_retries (s := { s with inputs := rest }) hs hlt hp (nextAnswer_of_forall_ok hok))

end

/-- R139: `n` NAKs within the budget send the frame `n` times more and take `n` answers; one NAK more ends the
session. -/
theorem run_naks {bytes : List Byte} {rest : List Input} (n : Nat) {s : State} (hs : s.state = .sendingBlock)
    (hb : s.blockedWrite = none) (hp : payload s = some bytes) (hok : ∀ a ∈ s.txAnswers, a = .ok)
    (hn : s.currentTry.toNat + n = s.maxRetryL.toNat)
    (hi : s.inputs = List.replicate (n + 1) (peerSends 0x15) ++ rest) :
    Host.Core.run Sys2Proof.core (n + 1) s = .next { s with
      state := .failed
      result := .retryLimitExceeded
      currentTry := s.maxRetryL
      inputs := rest
      txAnswers := s.txAnswers.drop n
      outputs := s.outputs ++ (List.replicate n
        [.progress s.blockIndex s.totalBlocks, .wire (frameBytes s.blockNumber bytes s.blockCrc)]).flatten } := by
  induction n generalizing s with
  | zero =>
    have hspent : s.currentTry = s.maxRetryL := BitVec.eq_of_toNat_eq hn
    rw [run_succ_of_next 0 (step_nak_spent hs hb hi hspent), run_zero, ← hspent]
    simp [State.enterFailed]
  | succ n ih =>
    have hlt : s.currentTry.toNat < s.maxRetryL.toNat := by omega
    have hcount : s.currentTry.toNat + 1 + n = s.maxRetryL.toNat := by omega
    rw [← countRetry_toNat hlt] at hcount
    have hrest : ∀ a ∈ s.txAnswers.tail, a = .ok := fun a ha => hok a (List.mem_of_mem_tail ha)
    have hagain := ih (s := s.retried bytes (List.replicate (n + 1) (peerSends 0x15) ++ rest)) hs hb hp hrest hcount rfl
    refine ((run_succ_of_next (n + 1) (step_nak_retries hs hb hi hp hok hlt)).trans hagain).trans ?_
    simp [State.retried, State.sentFrame, State.countRetry, List.replicate_succ]

/-- Settles O59, by induction on the retries left. -/
theorem retryBudgetSpent : Obligations.RetryBudgetSpent :=
  fun _ _ _ hs hb hp hok hle hi => run_naks _ hs hb hp hok (Nat.add_sub_of_le hle) hi

/-! ## A session acknowledged throughout (R144) -/

section
variable {s : State}

/-- R32, R176: the outputs of an answered attempt at the block named by the registers. -/
theorem AtBlock.sentBlock_outputs (hs : AtBlock s) :
    s.sentBlock.outputs =
      s.outputs ++ blockOutputs s.source s.fileSize.toNat s.totalBlocks (s.blockIndex.toNat - 1) := by
  have hsucc : s.blockIndex.toNat - 1 + 1 = s.blockIndex.toNat := Nat.sub_add_cancel hs.positive
  have hindex : BitVec.ofNat 32 s.blockIndex.toNat = s.blockIndex := by rw [BitVec.ofNat_toNat, BitVec.setWidth_eq]
  have hnumber : BitVec.ofNat 8 s.blockIndex.toNat = s.blockNumber := by rw [hs.number, BitVec.ofNat_toNat]
  simp only [blockOutputs, ← hs.position, hsucc, hindex, hnumber]
  rfl

/-- R14: an answered block attempt leaves a step boundary with the invariant, also once an input has been read. -/
theorem AtBlock.inv_sentBlock (hs : AtBlock s) (hok : s.nextAnswer = .ok) {i : Input} {rest : List Input}
    (hi : s.inputs = i :: rest) : Inv { s.sentBlock with inputs := rest } := by
  have hsent : (sendFrame s.loaded.enterSending).outcome = .next s.sentBlock := by rw [sendFrame_loaded hok]; rfl
  obtain ⟨-, -, hinputs⟩ := hs.memories
  refine inv_of_inputs (sendFrame_keeps_inv hs.inv_loaded hs.unblocked hsent) _ fun j hj => hinputs j ?_
  rw [hi]
  exact List.mem_cons_of_mem i hj

/-- R138, R172: an ACK exhausts the source exactly where the block it acknowledges is the last. -/
theorem advanceBlock_exhausted_iff (hinv : Inv s) (hs : s.state = .sendingBlock) :
    s.fileSize.toNat ≤ s.advanceBlock.srcPos.toNat ↔ s.blockIndex.toNat = s.totalBlocks.toNat := by
  obtain ⟨-, -, -, hsending, -⟩ := hinv
  obtain ⟨htotal, hone, -, hposition, hinside, hchunk, -⟩ := hsending hs
  have hadvance := advanceBlock_srcPos hchunk hinside
  rw [blockSize_eq] at hadvance hposition
  rw [htotal, blockCount_toNat]
  omega

end

/-- R142: from `s`, the session ends in DONE with `out` and the units of the termination added to the outputs, and the
inputs `rest` still to come. -/
structure CompletesWith (s : State) (out : List Output) (rest : List Input) (t : State) : Prop where
  state : t.state = .done
  result : t.result = .success
  inputs : t.inputs = rest
  outputs : t.outputs = s.outputs ++ (out ++ s.terminationUnits.map .wire)

theorem CompletesWith.after {s u t : State} {o out : List Output} {rest : List Input} (h : CompletesWith u out rest t)
    (ho : u.outputs = s.outputs ++ o) (hu : u.terminationUnits = s.terminationUnits) :
    CompletesWith s (o ++ out) rest t :=
  ⟨h.state, h.result, h.inputs, by rw [h.outputs, ho, hu]; simp only [List.append_assoc]⟩

/-- R138: the registers once the block named by `u` has been sent and acknowledged, with the inputs `rest` to come. -/
def State.acknowledged (u : State) (rest : List Input) : State :=
  ({ u.sentBlock with inputs := rest } : State).advanceBlock

section
variable {u : State} {rest : List Input} (hu : AtBlock u) (hok : ∀ a ∈ u.txAnswers, a = .ok)
include hu hok

/-- R138: the ACK of the last block ends the session. -/
theorem AtBlock.step_ack_last (hi : u.inputs = peerSends 0x06 :: rest)
    (hlast : u.blockIndex.toNat = u.totalBlocks.toNat) :
    step u.sentBlock = .next ((u.acknowledged rest).setEof true).terminated := by
  have hinv := hu.inv_sentBlock (nextAnswer_of_forall_ok hok) hi
  have hoks : ∀ a ∈ u.sentBlock.txAnswers, a = .ok := fun a ha => hok a (List.mem_of_mem_tail ha)
  rw [step_of_peerSends (s := u.sentBlock) rfl hu.unblocked hi (i := .rxAck) rfl]
  exact exec_rxAck_exhausted (s := { u.sentBlock with inputs := rest }) rfl
    ((advanceBlock_exhausted_iff hinv rfl).mpr hlast) (writesOk_of_forall_ok hoks 2)

/-- R138: the ACK of an earlier block sends the next one. -/
theorem AtBlock.step_ack_next (hi : u.inputs = peerSends 0x06 :: rest)
    (hmore : u.blockIndex.toNat ≠ u.totalBlocks.toNat) :
    AtBlock (u.acknowledged rest) ∧ (u.acknowledged rest).blockIndex.toNat = u.blockIndex.toNat + 1 ∧
      step u.sentBlock = .next (u.acknowledged rest).sentBlock := by
  have hinv := hu.inv_sentBlock (nextAnswer_of_forall_ok hok) hi
  have hoks : ∀ a ∈ u.sentBlock.txAnswers, a = .ok := fun a ha => hok a (List.mem_of_mem_tail ha)
  have hleft : (u.acknowledged rest).srcPos.toNat < u.fileSize.toNat :=
    Nat.lt_of_not_le fun hend => hmore ((advanceBlock_exhausted_iff hinv rfl).mp hend)
  refine ⟨atBlock_advanceBlock hinv rfl hu.unblocked hleft, (advanceBlock_counters hinv rfl).2, ?_⟩
  rw [step_of_peerSends (s := u.sentBlock) rfl hu.unblocked hi (i := .rxAck) rfl]
  obtain ⟨-, -, -, -, -, hm, -⟩ := hinv
  exact exec_rxAck_block (s := { u.sentBlock with inputs := rest }) rfl hleft hm (nextAnswer_of_forall_ok hoks)

end

/-- R144: once the block named by `u` has been sent, with `n` blocks after it, each ACK sends the next block and the
last ACK ends the session. -/
theorem AtBlock.run_acks {rest : List Input} (n : Nat) {u : State} (hu : AtBlock u)
    (hok : ∀ a ∈ u.txAnswers, a = .ok) (hn : u.blockIndex.toNat + n = u.totalBlocks.toNat)
    (hi : u.inputs = List.replicate (n + 1) (peerSends 0x06) ++ rest) :
    ∃ t, Host.Core.run Sys2Proof.core (n + 1) u.sentBlock = .next t ∧ CompletesWith u
      ((List.range' (u.blockIndex.toNat - 1) (n + 1)).flatMap
        (blockOutputs u.source u.fileSize.toNat u.totalBlocks)) rest t := by
  have hout := hu.sentBlock_outputs
  induction n generalizing u with
  | zero =>
    refine ⟨_, run_succ_of_next 0 (hu.step_ack_last hok hi hn), ?_⟩
    rw [List.range'_succ, List.flatMap_cons]
    exact CompletesWith.after ⟨rfl, rfl, rfl, rfl⟩ hout rfl
  | succ n ih =>
    obtain ⟨hv, hindex, hstep⟩ := hu.step_ack_next hok hi (by omega)
    have hoks : ∀ a ∈ u.sentBlock.txAnswers, a = .ok := fun a ha => hok a (List.mem_of_mem_tail ha)
    have hcount : u.blockIndex.toNat + 1 + n = u.totalBlocks.toNat := by omega
    rw [← hindex] at hcount
    obtain ⟨t, hrun, ht⟩ := ih hv hoks hcount rfl hv.sentBlock_outputs
    refine ⟨t, (run_succ_of_next (n + 1) hstep).trans hrun, ?_⟩
    rw [hindex, Nat.sub_add_comm hu.positive] at ht
    rw [List.range'_succ, List.flatMap_cons]
    exact ht.after hout rfl

/-- R34: only an empty file has no block. -/
theorem blockCount_toNat_pos {f : Word32} (h : f ≠ 0) : 0 < (blockCount f).toNat := by
  have hpos : 0 < f.toNat := Nat.pos_of_ne_zero fun hz => h (BitVec.eq_of_toNat_eq hz)
  rw [blockCount_toNat]
  omega

/-- R135, R144: the handshake ends the session of an empty source, and sends block 1 of any other. -/
theorem acknowledgedSession_completes {s : State} {rest : List Input} (hinv : Inv s) (hs : s.state = .awaitingStart)
    (hb : s.blockedWrite = none) (hok : ∀ a ∈ s.txAnswers, a = .ok)
    (hi : s.inputs = peerSends 0x43 :: (List.replicate s.totalBlocks.toNat (peerSends 0x06) ++ rest)) :
    ∃ t, Host.Core.run Sys2Proof.core (s.totalBlocks.toNat + 1) s = .next t ∧ CompletesWith s
      ((List.range s.totalBlocks.toNat).flatMap (blockOutputs s.source s.fileSize.toNat s.totalBlocks)) rest t := by
  have ⟨_, _, hstart, _, _, hm, _, hwf⟩ := hinv
  obtain ⟨htotal, -⟩ := hstart hs
  have hstep := step_of_peerSends (by rw [hs]; rfl) hb hi (i := .rxHandshake) rfl
  by_cases hz : s.fileSize = 0
  · have hzero : s.totalBlocks.toNat = 0 := by rw [htotal, hz]; rfl
    rw [hzero] at hstep ⊢
    exact ⟨_, run_succ_of_next 0 (hstep.trans (exec_rxHandshake_empty hs hz (writesOk_of_forall_ok hok 2))),
      rfl, rfl, rfl, rfl⟩
  · obtain ⟨n, hn⟩ := Nat.exists_eq_add_one.mpr (htotal ▸ blockCount_toNat_pos hz)
    have hread : Inv { s with inputs := List.replicate s.totalBlocks.toNat (peerSends 0x06) ++ rest } :=
      inv_of_inputs hinv s.txAnswers fun i h => hwf i (hi ▸ List.mem_cons_of_mem _ h)
    have hblock := atBlock_rewind hread hs hb hz
    have hsent := hstep.trans
      (exec_rxHandshake_block (s := { s with inputs := _ }) hs hz hm (nextAnswer_of_forall_ok hok))
    have hacks : List.replicate s.totalBlocks.toNat (peerSends 0x06) ++ rest =
        List.replicate (n + 1) (peerSends 0x06) ++ rest := by rw [hn]
    obtain ⟨t, hrun, ht⟩ := hblock.run_acks n hok ((Nat.add_comm 1 n).trans hn.symm) hacks
    rw [hn, List.range_eq_range']
    exact ⟨t, (run_succ_of_next (n + 1) hsent).trans hrun, ht.state, ht.result, ht.inputs, ht.outputs⟩

/-- Settles O58, by induction on the blocks: the handshake sends the first, each ACK the next, the last ACK the
termination. -/
theorem acknowledgedSessionSendsFile : Obligations.AcknowledgedSessionSendsFile := by
  intro s rest hinv hs hb hok hi
  obtain ⟨t, hrun, ht⟩ := acknowledgedSession_completes hinv hs hb hok hi
  exact ⟨t, hrun, ht.state, ht.result, ht.inputs, by rw [ht.outputs, map_terminationUnits]⟩

end Sys2Proof.Machine

/-! SUPPORT. The obligations of 42_engine.md: a session whose bytes are all ACK, NAK or CAN ends (R144, R243). -/

namespace Sys2Proof.Machine

/-! ## Steps that have a next state -/

/-- The piece of a step meets no fault. -/
def Flow.HasNext (f : Flow) : Prop :=
  ∃ t, f.outcome = .next t

theorem answerWrite_hasNext (a : TxAnswer) (bs : List Byte) (s : State) : (answerWrite a bs s).HasNext := by
  cases a <;> exact ⟨_, rfl⟩

theorem sendFrame_hasNext {s : State} {bytes : List Byte} (h : payload s = some bytes) : (sendFrame s).HasNext := by
  rw [sendFrame, frame_of_payload h]
  exact answerWrite_hasNext _ _ _

theorem sendRun_hasNext (s : State) : (sendRun s).HasNext := by
  rw [sendRun_eq]
  split
  · exact answerWrite_hasNext _ _ _
  · exact ⟨_, rfl⟩

theorem Flow.HasNext.andThen {f : Flow} {p : RowPart} (h : f.HasNext) (hp : ∀ s, (p.run s).HasNext) :
    (f.andThen p).HasNext := by
  cases f with
  | go s => exact hp s
  | ended s => exact ⟨s, rfl⟩
  | waiting s => exact ⟨_, rfl⟩
  | stuck e => obtain ⟨t, ht⟩ := h; cases ht

theorem enterTermination_hasNext (s : State) : (enterTermination s).HasNext :=
  ((answerWrite_hasNext _ _ _).andThen (p := .sendRun) sendRun_hasNext).andThen (p := .enterDone) fun s =>
    ⟨s.enterDone, rfl⟩

/-! ## What is left of a session -/

/-- R144: how many more bytes, each ACK or NAK, a session can take in SENDING_BLOCK: for each block left a first attempt
and its retries, less the retries used. -/
def State.attemptsLeft (s : State) : Nat :=
  (s.totalBlocks.toNat - s.blockIndex.toNat + 1) * (s.maxRetryL.toNat + 1) - s.currentTry.toNat

/-- R144: between two steps in SENDING_BLOCK, with a transport that answers every write. -/
structure Sending (s : State) : Prop where
  inv : Inv s
  state : s.state = .sendingBlock
  unblocked : s.blockedWrite = none
  answers : ∀ a ∈ s.txAnswers, a.isAnswer = true

/-- R144: a step from `s` ends the session, or goes on with it and has used up an attempt. -/
def Progresses (s t : State) : Prop :=
  t.state.terminal = true ∨
    t.state = .sendingBlock ∧ t.blockedWrite = none ∧ t.inputs = s.inputs ∧ t.txAnswers ⊆ s.txAnswers ∧
      t.attemptsLeft < s.attemptsLeft

section
variable {s t : State}

theorem WriteFailed.progresses {u : State} (h : WriteFailed u t) : Progresses s t := by
  obtain ⟨hfailed, -⟩ := h
  exact .inl (by rw [hfailed]; rfl)

theorem Sending.blockIndex_le (h : Sending s) : s.blockIndex.toNat ≤ s.totalBlocks.toNat := by
  obtain ⟨-, -, -, hsending, -⟩ := h.inv
  obtain ⟨htotal, -, -, hposition, hinside, -⟩ := hsending h.state
  exact blockIndex_le_totalBlocks htotal hposition hinside

theorem Sending.currentTry_le (h : Sending s) : s.currentTry.toNat ≤ s.maxRetryL.toNat := by
  obtain ⟨-, ⟨-, -, -, htry⟩, -⟩ := h.inv
  exact htry

/-- R26: the retries used are no more than the budget, so an attempt is left for the byte that answers the last one. -/
theorem Sending.attemptsLeft_pos (h : Sending s) : 0 < s.attemptsLeft := by
  have htry := h.currentTry_le
  rw [State.attemptsLeft, Nat.succ_mul]
  omega

theorem Sending.payload (h : Sending s) : ∃ bytes, payload s = some bytes := by
  obtain ⟨-, -, -, hsending, -⟩ := h.inv
  obtain ⟨-, -, -, -, -, -, -, hp, -⟩ := hsending h.state
  exact ⟨_, hp⟩

/-- R138: an ACK ends the session, or goes to the next block with the budget full again. -/
theorem Sending.ack (h : Sending s) : ∃ t, exec .rxAck s = .next t ∧ Progresses s t := by
  obtain ⟨-, -, -, -, -, hm, -⟩ := h.inv
  have hnext : (acknowledgeBlock s).HasNext := by
    by_cases hend : s.fileSize.toNat ≤ s.advanceBlock.srcPos.toNat
    · rw [acknowledgeBlock_exhausted hend]
      exact enterTermination_hasNext _
    · rw [acknowledgeBlock_block (Nat.lt_of_not_le hend) hm]
      exact sendFrame_hasNext (payload_loaded _)
  obtain ⟨t, ht⟩ := hnext
  have hexec : exec .rxAck s = .next t := (exec_rxAck_sending h.state).trans ht
  refine ⟨t, hexec, ?_⟩
  rcases execRxAck_answered h.answers h.state hexec with ⟨hleft, c, p, r, f, rfl⟩ | ⟨_, rfl⟩ | hfailed
  · refine .inr ⟨h.state, h.unblocked, rfl, List.tail_subset _, ?_⟩
    obtain ⟨-, hindex⟩ := advanceBlock_counters h.inv h.state
    have hle := h.blockIndex_le
    have hlast : s.blockIndex.toNat ≠ s.totalBlocks.toNat := fun hlast =>
      hleft.not_ge ((advanceBlock_exhausted_iff h.inv h.state).mpr hlast)
    have htry := h.currentTry_le
    change (s.totalBlocks.toNat - s.advanceBlock.blockIndex.toNat + 1) * (s.maxRetryL.toNat + 1) - 0 < s.attemptsLeft
    have hblocks : s.totalBlocks.toNat - s.advanceBlock.blockIndex.toNat + 1 =
        s.totalBlocks.toNat - s.blockIndex.toNat := by omega
    rw [hblocks, State.attemptsLeft, Nat.succ_mul]
    omega
  · exact .inl rfl
  · exact hfailed.progresses

/-- R139: a NAK uses up a retry, or ends the session. -/
theorem Sending.nak (h : Sending s) : ∃ t, exec .rxNak s = .next t ∧ Progresses s t := by
  have hnext : (retryBlock s).HasNext := by
    by_cases hspent : s.maxRetryL.toNat ≤ s.currentTry.toNat
    · rw [retryBlock_spent hspent]
      exact ⟨_, rfl⟩
    · obtain ⟨bytes, hp⟩ := h.payload
      rw [retryBlock_retries (Nat.lt_of_not_le hspent)]
      exact sendFrame_hasNext (s := s.countRetry) hp
  obtain ⟨t, ht⟩ := hnext
  have hexec : exec .rxNak s = .next t := (exec_rxNak_sending h.state).trans ht
  refine ⟨t, hexec, ?_⟩
  rcases execRxNak_answered h.answers h.state hexec with ⟨hlt, f, rfl⟩ | ⟨_, rfl⟩ | hfailed
  · refine .inr ⟨h.state, h.unblocked, rfl, List.tail_subset _, ?_⟩
    have hpos := h.attemptsLeft_pos
    change (s.totalBlocks.toNat - s.blockIndex.toNat + 1) * (s.maxRetryL.toNat + 1) - s.countRetry.currentTry.toNat <
      s.attemptsLeft
    rw [countRetry_toNat hlt]
    rw [State.attemptsLeft] at hpos ⊢
    omega
  · exact .inl rfl
  · exact hfailed.progresses

/-- R140: a CAN ends the session. -/
theorem Sending.can (h : Sending s) : ∃ t, exec .rxCan s = .next t ∧ Progresses s t :=
  ⟨_, canCancels s (by rw [h.state]; rfl), .inl rfl⟩

/-- R144: each byte the peer answers with ends the session or uses up an attempt. -/
theorem Sending.step_answer {b : Byte} {rest : List Input} (h : Sending s) (hb : b = 0x06 ∨ b = 0x15 ∨ b = 0x18)
    (hi : s.inputs = peerSends b :: rest) :
    ∃ t, step s = .next t ∧
      (t.state.terminal = true ∨ Sending t ∧ t.inputs = rest ∧ t.attemptsLeft < s.attemptsLeft) := by
  obtain ⟨-, -, -, -, -, -, -, hwf⟩ := h.inv
  have hinv : Inv { s with inputs := rest } :=
    inv_of_inputs h.inv s.txAnswers fun i hmem => hwf i (hi ▸ List.mem_cons_of_mem _ hmem)
  have hread : Sending { s with inputs := rest } := ⟨hinv, h.state, h.unblocked, h.answers⟩
  have hrow : ∃ t, exec (decodeRx b) { s with inputs := rest } = .next t ∧ Progresses { s with inputs := rest } t := by
    rcases hb with rfl | rfl | rfl
    · exact hread.ack
    · exact hread.nak
    · exact hread.can
  obtain ⟨t, hexec, hprogress⟩ := hrow
  have hstep : step s = .next t := (step_of_peerSends (by rw [h.state]; rfl) h.unblocked hi rfl).trans hexec
  refine ⟨t, hstep, hprogress.imp_right fun ⟨hstate, hfree, hinputs, hanswers, hless⟩ => ⟨?_, hinputs, hless⟩⟩
  exact ⟨stepKeepsInv s t h.inv hstep, hstate, hfree, fun a ha => h.answers a (hanswers ha)⟩

end

/-- R144: with as many answers of the peer as attempts are left, a session ends. -/
theorem Sending.ends {rest : List Input} (bs : List Byte) {s : State} (h : Sending s)
    (hbs : ∀ b ∈ bs, b = 0x06 ∨ b = 0x15 ∨ b = 0x18) (hlen : s.attemptsLeft ≤ bs.length)
    (hi : s.inputs = bs.map peerSends ++ rest) :
    ∃ k t, k ≤ bs.length ∧ Host.Core.run Sys2Proof.core k s = .next t ∧ t.state.terminal = true := by
  induction bs generalizing s with
  | nil => exact absurd h.attemptsLeft_pos (Nat.not_lt_of_le hlen)
  | cons b bs ih =>
    obtain ⟨t, hstep, hend | ⟨ht, hinputs, hless⟩⟩ := h.step_answer (hbs b List.mem_cons_self) hi
    · exact ⟨1, t, Nat.le_add_left 1 _, run_succ_of_next 0 hstep, hend⟩
    · obtain ⟨k, u, hk, hrun, hend⟩ := ih ht (fun c hc => hbs c (List.mem_cons_of_mem b hc))
        (Nat.le_of_lt_succ (hless.trans_le hlen)) hinputs
      exact ⟨k + 1, u, Nat.succ_le_succ hk, (run_succ_of_next k hstep).trans hrun, hend⟩

/-- Settles O60, by induction on the bytes of the peer: each ends the session or uses up an attempt. -/
theorem answeredSessionEnds : Obligations.AnsweredSessionEnds :=
  fun _ bs _ hinv hs hb hans hbs hlen hi => Sending.ends bs ⟨hinv, hs, hb, hans⟩ hbs hlen.ge hi

end Sys2Proof.Machine

/-! SUPPORT. The obligations of 43_framer.md: the transmitter's units as instructions (R176, R178), what a block load
leaves (R170, R171), and the payloads of a whole file (R172). -/

namespace Sys2Proof.Machine

/-! ## One block attempt (R176) -/

/-- R176: a block attempt whose write fails: the progress event is out, and the frame but for its end. -/
theorem sendFrame_txfail {s : State} {bytes : List Byte} {k : Nat} (h : payload s = some bytes)
    (ha : s.nextAnswer = .txfail k) :
    sendFrame s = .ended { s with
      state := .failed
      result := .transportFailure
      txAnswers := s.txAnswers.tail
      outputs := s.outputs ++ [.progress s.blockIndex s.totalBlocks,
        .wire (strictPrefix k (frameBytes s.blockNumber bytes s.blockCrc))] } := by
  have hp : s.reportProgress.nextAnswer = .txfail k := ha
  rw [sendFrame, frame_of_payload h]
  simp only [txWrite_txfail _ hp]
  simp [State.reportProgress, State.emit]

/-- R84: a failed write delivers at most all but the last of the 133 bytes of a frame. -/
theorem strictPrefix_frameBytes_length {s : State} {bytes : List Byte} (h : payload s = some bytes) (k : Nat) (n : Byte)
    (crc : Word16) : (strictPrefix k (frameBytes n bytes crc)).length ≤ 132 := by
  have hlen := frameBytes_length h n crc
  have hne : frameBytes n bytes crc ≠ [] := List.ne_nil_of_length_eq_add_one hlen
  exact Nat.le_of_lt_succ ((strictPrefix_length_lt k hne).trans_eq hlen)

/-- Settles O36: TX_FRAME is `SendFrame()`, by the answer to its write. -/
theorem blockAttempt : Obligations.BlockAttempt := fun s bytes hp =>
  ⟨fun ha => congrArg Flow.outcome (sendFrame_ok hp ha), fun k ha =>
    ⟨strictPrefix k (frameBytes s.blockNumber bytes s.blockCrc), strictPrefix_isPrefix k _,
      strictPrefix_frameBytes_length hp k _ _, congrArg Flow.outcome (sendFrame_txfail hp ha)⟩⟩

/-! ## The units of a termination (R178) -/

section
variable (b : Byte) {s : State}

/-- R29: a write of one byte answered `ok` puts it on the wire. -/
theorem txWrite_byte_ok (h : s.nextAnswer = .ok) :
    (txWrite [b] s).outcome = .next { s with
      txAnswers := s.txAnswers.tail, outputs := s.outputs ++ [.wire [b]] } :=
  congrArg Flow.outcome (txWrite_ok [b] h)

/-- R29: a failed write of one byte delivers nothing and ends the session. -/
theorem txWrite_byte_txfail {k : Nat} (h : s.nextAnswer = .txfail k) :
    (txWrite [b] s).outcome = .next { s with
      state := .failed, result := .transportFailure
      txAnswers := s.txAnswers.tail, outputs := s.outputs ++ [.wire []] } := by
  rw [txWrite_txfail [b] h, strictPrefix_singleton, Flow.outcome_ended]

end

theorem exec_txRun_of_runFlag {s : State} (h : s.runFlag = true) : exec .txRun s = (txWrite [s.runByte] s).outcome :=
  congrArg Flow.outcome ((sendRun_eq s).trans (if_pos h))

theorem exec_txRun_of_not_runFlag {s : State} (h : s.runFlag = false) : exec .txRun s = .next s :=
  congrArg Flow.outcome ((sendRun_eq s).trans (if_neg (Bool.eq_false_iff.mp h)))

/-- Settles O38: EOT is one write of one byte, and so is RUN where `runFlag` is set. -/
theorem terminationUnits : Obligations.TerminationUnits := fun s =>
  ⟨txWrite_byte_ok Wire.eot, fun _ => txWrite_byte_txfail Wire.eot, exec_txRun_of_not_runFlag,
    fun hrun ha => (exec_txRun_of_runFlag hrun).trans (txWrite_byte_ok s.runByte ha),
    fun _ hrun ha => (exec_txRun_of_runFlag hrun).trans (txWrite_byte_txfail s.runByte ha), rfl⟩

/-! ## The bytes of a block (R170) -/

/-- R60: every address of a byte source holds a value. -/
theorem Memory.read_src (m : Memory) (a : Nat) : m.read .src a = some ((m.read .src a).getD 0) := by
  rw [Memory.read]
  cases m.listed a <;> rfl

theorem payloadByte_of_lt {fileSize pos k : Nat} (source : Memory) (h : pos + k < fileSize) :
    payloadByte source fileSize pos k = (source.read .src (pos + k)).getD 0 :=
  if_pos h

theorem payloadByte_of_le {fileSize pos k : Nat} (source : Memory) (h : fileSize ≤ pos + k) :
    payloadByte source fileSize pos k = Wire.sub :=
  if_neg (Nat.not_lt_of_le h)

/-- R63: inside the file the payload byte is `SrcRead`. -/
theorem srcRead_eq_payloadByte {s : State} {k : Nat} (h : s.srcPos.toNat + k < s.fileSize.toNat) :
    srcRead s (s.srcPos.toNat + k) = some (payloadByte s.source s.fileSize.toNat s.srcPos.toNat k) := by
  rw [srcRead, if_pos h, payloadByte_of_lt s.source h]
  exact Memory.read_src s.source _

/-- R170: what each byte of PBUF holds after a load. -/
theorem pbufRead_loaded (s : State) {k : Nat} (hk : k < Config.blockSize) :
    pbufRead s.loaded k = some (payloadByte s.source s.fileSize.toNat s.srcPos.toNat k) := by
  rw [← payload_getElem? (payload_loaded s) hk, blockPayload_eq, List.getElem?_map, List.getElem?_range hk,
    Option.map_some]

/-- Settles O35: a load leaves `State.loaded`, whose PBUF holds the source bytes up to the chunk's end and SUB after
it. -/
theorem loadBlockFillsPayload : Obligations.LoadBlockFillsPayload := by
  intro s hin hcanonical
  have hchunk : s.loaded.chunkLen.toNat = min 128 (s.fileSize.toNat - s.srcPos.toNat) :=
    chunkLength_toNat s.fileSize s.srcPos
  refine ⟨s.loaded, _, loadBlock_canonical hcanonical, rfl, hchunk, by omega, fun k hk => ?_, fun k hle hk => ?_,
    loaded_wf s, payload_loaded s, rfl, rfl⟩
  · have hread := pbufRead_loaded s (k := k) (by rw [blockSize_eq]; omega)
    exact ⟨hread.trans (srcRead_eq_payloadByte (by omega)).symm, by rw [hread]; rfl⟩
  · rw [pbufRead_loaded s hk, payloadByte_of_le s.source (by omega)]
    rfl

/-! ## The payloads of a file (R172) -/

/-- R172: payload byte `k` of the block at `pos` is byte `pos + k` of the file with its filler. -/
theorem payloadByte_eq_at_zero (source : Memory) (fileSize pos k : Nat) :
    payloadByte source fileSize pos k = payloadByte source fileSize 0 (pos + k) := by
  rw [payloadByte, payloadByte, Nat.zero_add]

/-- R172: the payloads of the first `n` blocks are the first `128 * n` bytes of the file with its filler. -/
theorem flatMap_blockPayload (source : Memory) (fileSize n : Nat) :
    ((List.range n).flatMap fun k => blockPayload source fileSize (128 * k)) =
      (List.range (128 * n)).map (payloadByte source fileSize 0) := by
  induction n with
  | zero => rfl
  | succ n ih =>
    have hblock : blockPayload source fileSize (128 * n) =
        ((List.range 128).map (128 * n + ·)).map (payloadByte source fileSize 0) := by
      rw [blockPayload_eq, blockSize_eq, List.map_map]
      exact List.map_congr_left fun k _ => payloadByte_eq_at_zero source fileSize (128 * n) k
    rw [List.range_succ, List.flatMap_append, ih, List.flatMap_singleton, hblock, ← List.map_append,
      ← List.range_add, Nat.mul_succ]

/-- Settles O57, by induction on the blocks: cut to the file's length, the payloads in a row have no filler left. -/
theorem payloadsCarryFile : Obligations.PayloadsCarryFile := by
  intro source fileSize
  have hcover : fileSize ≤ 128 * ((fileSize + 127) / 128) := by omega
  rw [flatMap_blockPayload, ← List.map_take, List.take_range, Nat.min_eq_left hcover]
  refine List.map_congr_left fun p hp => ?_
  have hinside : 0 + p < fileSize := by simpa using hp
  rw [payloadByte_of_lt source hinside, Nat.zero_add]

end Sys2Proof.Machine

/-! SUPPORT. The obligations of 60_exceptions.md: a write failure leaves what came before it done (R204), a write
without an answer waits, and its late answer leads where the answer at once would (R214). -/

namespace Sys2Proof.Machine

/-! ## A write failure is precise (R204) -/

/-- Settles O41: an ACK with source left is an attempt at the block just loaded, and its write fails. -/
theorem failureIsPrecise : Obligations.FailureIsPrecise := by
  intro s k hs hm ha pos bytes hleft
  have hpayload : payload s.advanceBlock.loaded = some bytes := payload_loaded s.advanceBlock
  have hanswer : s.advanceBlock.loaded.nextAnswer = .txfail k := ha
  refine ⟨strictPrefix k (frameBytes (s.blockNumber + 1) bytes (computeCRC16 bytes)), strictPrefix_isPrefix k _,
    strictPrefix_frameBytes_length hpayload k _ _, ?_⟩
  rw [exec_rxAck_sending hs, acknowledgeBlock_block hleft hm, sendFrame_txfail hpayload hanswer]
  rfl

/-! ## A write without an answer waits (R214) -/

section
variable {s : State} (ha : s.nextAnswer = .pending)
include ha

/-- R142, R214: a termination blocked in EOT has RUN and DONE still to come. -/
theorem enterTermination_pending_eot : enterTermination s = .waiting { s with
    state := .awaitingTerminationAck
    txAnswers := s.txAnswers.tail
    blockedWrite := some { bytes := [0x04], rest := [.sendRun, .enterDone] } } := by
  rw [enterTermination_eq, txWrite_pending (s := s.enterTerminationAck) _ ha]
  rfl

/-- R139, R214: a retransmission blocks with its retry counted. -/
theorem exec_rxNak_pending {bytes : List Byte} (hs : s.state = .sendingBlock)
    (hlt : s.currentTry.toNat < s.maxRetryL.toNat) (hp : payload s = some bytes) :
    exec .rxNak s = .next (s.countRetry.blockedInFrame (frameBytes s.blockNumber bytes s.blockCrc)) := by
  rw [exec_rxNak_sending hs, retryBlock_retries hlt, sendFrame_pending (s := s.countRetry) hp ha]
  rfl

end

/-- R142, R214: a termination blocked in RUN has its EOT out and DONE still to come. -/
theorem enterTermination_pending_run {s : State} (hrun : s.runFlag = true) (hok : s.nextAnswer = .ok)
    (ha : s.txAnswers.tail.headD .ok = .pending) :
    enterTermination s = .waiting { s with
      state := .awaitingTerminationAck
      txAnswers := s.txAnswers.drop 2
      outputs := s.outputs ++ [.wire [0x04]]
      blockedWrite := some { bytes := [s.runByte], rest := [.enterDone] } } := by
  have hflag : (s.enterTerminationAck.popAnswer.emit (.wire [Wire.eot])).runFlag = true := hrun
  have hanswer : (s.enterTerminationAck.popAnswer.emit (.wire [Wire.eot])).nextAnswer = .pending := ha
  rw [enterTermination_eq, txWrite_ok (s := s.enterTerminationAck) _ hok, Flow.andThen_go, RowPart.run_sendRun,
    sendRun_eq, if_pos hflag, txWrite_pending _ hanswer, ← List.tail_drop]
  simp [State.postpone, State.blockIn, State.emit, State.popAnswer, State.enterTerminationAck, Wire.eot]

/-- Settles O42: the wait of each write, held with the parts of its row that follow it. -/
theorem unansweredWriteWaits : Obligations.UnansweredWriteWaits := fun s =>
  ⟨fun bs ha => txWrite_pending bs ha,
    fun _ ha hp => ⟨sendFrame_pending hp ha, congrArg Flow.outcome (sendFrame_pending hp ha),
      fun hs hlt => exec_rxNak_pending ha hs hlt hp⟩,
    fun ha => congrArg Flow.outcome (txWrite_pending [Wire.eot] ha),
    fun ha hrun => (exec_txRun_of_runFlag hrun).trans (congrArg Flow.outcome (txWrite_pending [s.runByte] ha)),
    enterTermination_pending_eot, enterTermination_pending_run⟩

/-! ## Nothing but its answer wakes a blocked write (R205, R214) -/

/-- R214: outside a reading state, and in a blocked write, the answers of the transport to reads stay where they are. -/
theorem takeInput_only_rx {s : State} (h : s.state.reading = false ∨ s.blockedWrite ≠ none)
    (hrx : ∀ i ∈ s.inputs, ∃ a, i = .rx a) : takeInput s.accepts s.inputs = none := by
  refine takeInput_none fun i hi => ?_
  obtain ⟨a, rfl⟩ := hrx i hi
  rcases h with hr | hb
  · simp [State.accepts, hr]
  · simp [State.accepts, Option.isNone_eq_false_iff.mpr (Option.isSome_iff_ne_none.mpr hb)]

/-- A host word has no next state while the engine is busy (R130). -/
theorem execDecodeHost_not_next_of_busy {w : HostWord} {s t : State} (hb : s.state.busy = true) :
    exec (decodeHost w) s ≠ .next t := by
  intro h
  have hidle := (execDecodeHost_next h).1
  rw [not_idleLike_of_busy hb] at hidle
  cases hidle

/-- R214: what a blocked engine can take beside the answer and a reset is a breach outside a session, which is
nothing. -/
theorem step_blocked_next {s t : State} (hblocked : s.blockedWrite ≠ none) (h : step s = .next t)
    (hanswer : ∀ a rest, takeInput s.accepts s.inputs ≠ some (.tx a, rest))
    (hreset : ∀ rest, takeInput s.accepts s.inputs ≠ some (.reset, rest)) : t = { s with inputs := t.inputs } := by
  rcases step_next h with ⟨_, rfl⟩ | ⟨i, rest, htake, ⟨a, _, _, hb, _⟩ | ⟨a, rfl, _, _⟩ | ⟨a, w, rfl, _, _⟩ |
    ⟨w, m, _, hb, he⟩ | ⟨rfl, _⟩ | ⟨b, _, _, rfl⟩ | ⟨w, _, hb, _⟩ | ⟨b, _, hb, _⟩⟩
  · rfl
  · exact absurd hb hblocked
  · exact absurd htake (hanswer a rest)
  · exact absurd htake (hanswer a rest)
  · exact absurd he (execDecodeHost_not_next_of_busy (hb.resolve_right hblocked :))
  · exact absurd htake (hreset rest)
  · rfl
  · exact absurd hb hblocked
  · exact absurd hb hblocked

/-- Settles O45: with nothing to take a step waits, and a blocked engine can take little. -/
theorem waitChangesNothing : Obligations.WaitChangesNothing := by
  refine fun s => ⟨fun _ hi => ?_, fun h hrx => step_of_nothing (takeInput_only_rx h hrx), fun t hb h hans hres =>
    step_blocked_next hb h hans hres⟩
  refine step_of_nothing (takeInput_none fun i hmem => ?_)
  rw [hi] at hmem
  cases hmem

/-! ## The late answer leads where the answer at once would (R214) -/

/-- R214: two runs of one step, with nothing blocked yet: in `s` the next write but `ok` ones has no answer yet, in `t`
it has the answer `a`; and of the inputs, `t` holds those that will come after `a`. -/
structure AnsweredLater (a : TxAnswer) (rest : List Input) (s t : State) : Prop where
  unblocked : s.blockedWrite = none
  answers : ∃ earlier later, (∀ b ∈ earlier, b = .ok) ∧ s.txAnswers = earlier ++ .pending :: later ∧
    t = { s with txAnswers := earlier ++ a :: later, inputs := rest }

/-- R214: the flow `f` of the run without the answer against the flow `g` of the run that has it: they go on or stop
alike, and where `f` waits, the answer takes it where `g` is. -/
inductive Flow.CatchesUp (a : TxAnswer) (rest : List Input) : Flow → Flow → Prop where
  | go {s t : State} (h : AnsweredLater a rest s t) : CatchesUp a rest (.go s) (.go t)
  | ended {s t : State} (h : AnsweredLater a rest s t) : CatchesUp a rest (.ended s) (.ended t)
  | waiting {s : State} (w : BlockedWrite) (hw : s.blockedWrite = some w) :
      CatchesUp a rest (.waiting s) (resumeWrite w a { s with inputs := rest })
  | stuck (e : Fault) : CatchesUp a rest (.stuck e) (.stuck e)

/-- R214: a part postponed by a wait runs after the rest of the blocked step. -/
theorem resumeWrite_postpone (w : BlockedWrite) (p : RowPart) (a : TxAnswer) (rest : List Input) (s : State) :
    resumeWrite { w with rest := w.rest ++ [p] } a { s.postpone p with inputs := rest } =
      (resumeWrite w a { s with inputs := rest }).andThen p := by
  simp only [resumeWrite, List.foldl_append, List.foldl_cons, List.foldl_nil]
  rfl

/-- R214: a step that has caught up with its answer ends where the step with the answer at once does. -/
theorem Flow.CatchesUp.step_eq {a : TxAnswer} {rest : List Input} {f g : Flow} {t : State} (h : f.CatchesUp a rest g)
    (hf : f.outcome = .next t) (hb : t.blockedWrite ≠ none) :
    step { t with inputs := .tx a :: rest } = g.outcome := by
  cases h with
  | go h => cases hf; exact absurd h.unblocked hb
  | ended h => cases hf; exact absurd h.unblocked hb
  | waiting w hw => cases hf; exact step_of_late_answer hw rfl
  | stuck e => cases hf

section
variable {a : TxAnswer} {rest : List Input} {s t : State}

/-- An update that neither sees nor writes the inputs and the answers to come, and blocks nothing, keeps the two runs
together. -/
theorem AnsweredLater.map (h : AnsweredLater a rest s t) (f : State → State)
    (hf : ∀ q i, f { s with txAnswers := q, inputs := i } = { f s with txAnswers := q, inputs := i })
    (hblocked : (f s).blockedWrite = s.blockedWrite) : AnsweredLater a rest (f s) (f t) := by
  obtain ⟨hb, earlier, later, hok, hs, rfl⟩ := h
  have hanswers : (f s).txAnswers = s.txAnswers := (congrArg State.txAnswers (hf s.txAnswers s.inputs) :)
  exact ⟨hblocked.trans hb, earlier, later, hok, hanswers.trans hs, hf _ _⟩

/-- What is read of a state without its inputs and the answers to come is the same in both runs. -/
theorem AnsweredLater.congr {α : Type} (h : AnsweredLater a rest s t) (g : State → α)
    (hg : ∀ q i, g { s with txAnswers := q, inputs := i } = g s) : g t = g s := by
  obtain ⟨_, _, _, _, _, rfl⟩ := h
  exact hg _ _

/-- R29, R214: a write before the one without an answer is answered `ok` in both runs; that one waits, and its answer
does what it does at once. -/
theorem AnsweredLater.txWrite (h : AnsweredLater a rest s t) (bs : List Byte) :
    (txWrite bs s).CatchesUp a rest (txWrite bs t) := by
  obtain ⟨hb, earlier, later, hok, hs, rfl⟩ := h
  cases earlier with
  | nil =>
    have hpending : s.nextAnswer = .pending := by rw [State.nextAnswer, hs]; rfl
    have hlate : Machine.txWrite bs { s with txAnswers := [] ++ a :: later, inputs := rest } =
        resumeWrite { bytes := bs, rest := [] } a { s.popAnswer.blockIn bs with inputs := rest } := by
      rw [resumeWrite_last rfl]
      simp [Machine.txWrite, State.nextAnswer, State.popAnswer, State.blockIn, hs, hb]
    rw [txWrite_pending bs hpending, hlate]
    exact .waiting _ rfl
  | cons b earlier =>
    obtain ⟨rfl, hrest⟩ := List.forall_mem_cons.mp hok
    have hanswer : s.nextAnswer = .ok := by rw [State.nextAnswer, hs]; rfl
    rw [txWrite_ok bs hanswer, txWrite_ok bs rfl]
    exact .go ⟨hb, earlier, later, hrest, by simp [State.emit, State.popAnswer, hs], rfl⟩

theorem AnsweredLater.sendFrame (h : AnsweredLater a rest s t) : (sendFrame s).CatchesUp a rest (sendFrame t) := by
  rw [Machine.sendFrame, Machine.sendFrame, h.congr frame fun _ _ => rfl]
  cases frame s with
  | none => exact .stuck _
  | some bytes => exact (h.map State.reportProgress (fun _ _ => rfl) rfl).txWrite bytes

theorem AnsweredLater.sendRun (h : AnsweredLater a rest s t) : (sendRun s).CatchesUp a rest (sendRun t) := by
  rw [sendRun_eq, sendRun_eq, h.congr State.runFlag fun _ _ => rfl, h.congr State.runByte fun _ _ => rfl]
  split
  · exact h.txWrite _
  · exact .go h

theorem AnsweredLater.run (h : AnsweredLater a rest s t) (p : RowPart) : (p.run s).CatchesUp a rest (p.run t) := by
  cases p with
  | enterSending => exact .go (h.map State.enterSending (fun _ _ => rfl) rfl)
  | sendFrame => exact h.sendFrame
  | sendRun => exact h.sendRun
  | enterDone => exact .go (h.map State.enterDone (fun _ _ => rfl) rfl)

/-- R214: the part after a wait runs when the answer has come. -/
theorem Flow.CatchesUp.andThen {f g : Flow} (h : f.CatchesUp a rest g) (p : RowPart) :
    (f.andThen p).CatchesUp a rest (g.andThen p) := by
  cases h with
  | go h => exact h.run p
  | ended h => exact .ended h
  | @waiting u w hw =>
    have hpostponed : (u.postpone p).blockedWrite = some { w with rest := w.rest ++ [p] } := by
      rw [State.postpone_blockedWrite, hw, Option.map_some]
    rw [Flow.andThen_waiting, ← resumeWrite_postpone]
    exact .waiting _ hpostponed
  | stuck e => exact .stuck e

/-- R170: a block load asks the transport for nothing. (The loaded PBUF and CRC are made opaque, so that the two states
are not compared by computing them.) -/
theorem AnsweredLater.loadBlock (h : AnsweredLater a rest s t) : (loadBlock s).CatchesUp a rest (loadBlock t) := by
  obtain ⟨hb, earlier, later, hok, hs, rfl⟩ := h
  rw [loadBlock_eq, loadBlock_eq]
  dsimp only
  generalize filledPbuf s.source s.fileSize.toNat s.srcPos.toNat s.pbuf = pbuf
  generalize computeCRC16 (blockPayload s.source s.fileSize.toNat s.srcPos.toNat) = crc
  exact .go ⟨hb, earlier, later, hok, hs, rfl⟩

theorem AnsweredLater.enterTermination (h : AnsweredLater a rest s t) :
    (enterTermination s).CatchesUp a rest (enterTermination t) :=
  (((h.map State.enterTerminationAck (fun _ _ => rfl) rfl).txWrite _).andThen .sendRun).andThen .enterDone

theorem AnsweredLater.beginTransfer (h : AnsweredLater a rest s t) :
    (beginTransfer s).CatchesUp a rest (beginTransfer t) := by
  have hrewind (b : Bool) : AnsweredLater a rest (s.rewind.setEof b) (t.rewind.setEof b) :=
    h.map (fun u => u.rewind.setEof b) (fun _ _ => rfl) rfl
  rw [Machine.beginTransfer, Machine.beginTransfer, h.congr State.fileSize fun _ _ => rfl]
  split
  · exact (hrewind true).enterTermination
  · exact ((hrewind false).loadBlock.andThen .enterSending).andThen .sendFrame

theorem AnsweredLater.acknowledgeBlock (h : AnsweredLater a rest s t) :
    (acknowledgeBlock s).CatchesUp a rest (acknowledgeBlock t) := by
  have hadvance : AnsweredLater a rest s.advanceBlock t.advanceBlock := h.map _ (fun _ _ => rfl) rfl
  rw [Machine.acknowledgeBlock, Machine.acknowledgeBlock, hadvance.congr State.sourceExhausted fun _ _ => rfl]
  split
  · exact (hadvance.map (State.setEof true) (fun _ _ => rfl) rfl).enterTermination
  · exact hadvance.loadBlock.andThen .sendFrame

theorem AnsweredLater.retryBlock (h : AnsweredLater a rest s t) : (retryBlock s).CatchesUp a rest (retryBlock t) := by
  rw [Machine.retryBlock, Machine.retryBlock, h.congr State.maxRetryL fun _ _ => rfl,
    h.congr State.currentTry fun _ _ => rfl]
  split
  · exact .ended (h.map (State.enterFailed _) (fun _ _ => rfl) rfl)
  · exact (h.map State.countRetry (fun _ _ => rfl) rfl).sendFrame

/-- A row that transmits on a condition blocks only where the condition holds. -/
theorem AnsweredLater.step_eq_of_row {c : Prop} [Decidable c] {f g : Flow} {u : State} (h : AnsweredLater a rest s t)
    (hflow : f.CatchesUp a rest g) (he : (if c then f.outcome else .next s) = .next u) (hb : u.blockedWrite ≠ none) :
    step { u with inputs := .tx a :: rest } = if c then g.outcome else .next t := by
  by_cases hc : c
  · rw [if_pos hc] at he ⊢
    exact hflow.step_eq he hb
  · rw [if_neg hc] at he
    cases he
    exact absurd h.unblocked hb

/-- R214: where an instruction has blocked, the late answer takes the step where the answer at once takes it. -/
theorem AnsweredLater.exec {i : Instr} {u : State} (h : AnsweredLater a rest s t) (he : exec i s = .next u)
    (hb : u.blockedWrite ≠ none) : step { u with inputs := .tx a :: rest } = exec i t := by
  have hstate : t.state = s.state := h.congr State.state fun _ _ => rfl
  cases i with
  | rxHandshake =>
    rw [exec_rxHandshake] at he ⊢
    exact hstate ▸ h.step_eq_of_row h.beginTransfer he hb
  | rxAck =>
    rw [exec_rxAck] at he ⊢
    exact hstate ▸ h.step_eq_of_row h.acknowledgeBlock he hb
  | rxNak =>
    rw [exec_rxNak] at he ⊢
    exact hstate ▸ h.step_eq_of_row h.retryBlock he hb
  | rxCan => rcases execRxCan_next he with ⟨_, rfl⟩ | ⟨_, rfl⟩ <;> exact absurd h.unblocked hb
  | rxFail => rcases execRxFail_next he with ⟨_, rfl⟩ | ⟨_, rfl⟩ <;> exact absurd h.unblocked hb
  | txFrame => exact h.sendFrame.step_eq he hb
  | txEot => exact (h.txWrite _).step_eq he hb
  | txRun => exact h.sendRun.step_eq he hb
  | hostStart =>
    obtain ⟨-, ⟨_, rfl⟩ | ⟨_, rfl⟩ | ⟨_, rfl⟩⟩ := execHostStart_next he <;> exact absurd h.unblocked hb
  | hostStartRsv | crcRsv => cases he
  | rxOther | crcHold | crcClear | crcUpdate => cases he; exact absurd h.unblocked hb

end

/-- Settles O43: the run that waits and the run that has the answer go through the parts of the row side by side. -/
theorem lateAnswerSameOutcome : Obligations.LateAnswerSameOutcome := by
  intro i s t a earlier later rest hs hok he hb
  have hlater : AnsweredLater a rest { s with txAnswers := earlier ++ .pending :: later }
      { s with txAnswers := earlier ++ a :: later, inputs := rest } := ⟨hs, earlier, later, hok, rfl, rfl⟩
  exact hlater.exec he hb

end Sys2Proof.Machine

/-! SUPPORT. The obligations of 60_exceptions.md: where each outcome of a session comes from (R200, R201). -/

namespace Sys2Proof.Machine

/-! ## Writes that end a session -/

section
variable {s t : State}

/-- R201, R203: a write ends a session where it is answered `txfail`, and gives it no other outcome. -/
theorem txWrite_result {bs : List Byte} (h : (txWrite bs s).outcome = .next t) (hr : s.result = .none) :
    t.result = .none ∨ WriteFailed s t := by
  rcases txWrite_next h with ⟨_, rfl⟩ | ⟨k, ha, rfl⟩ | ⟨k, _, rfl⟩ | ⟨_, rfl⟩
  · exact .inl hr
  · exact .inr ⟨rfl, rfl, k, 0, rfl, nextAnswer_head ha (by simp), List.drop_one.symm⟩
  · exact .inl rfl
  · exact .inl hr

theorem sendFrame_result (h : (sendFrame s).outcome = .next t) (hr : s.result = .none) :
    t.result = .none ∨ WriteFailed s t := by
  rcases sendFrame_cases s with ⟨_, hs⟩ | ⟨bs, _, hs⟩ <;> rw [hs] at h
  · cases h
  · exact (txWrite_result h hr :)

theorem sendRun_result (h : (sendRun s).outcome = .next t) (hr : s.result = .none) :
    t.result = .none ∨ WriteFailed s t := by
  rw [sendRun_eq] at h
  split at h
  · exact txWrite_result h hr
  · cases h; exact .inl hr

/-- R142, R201: a termination that does not complete gives a session its outcome by a failed write. -/
theorem enterTermination_result (h : (enterTermination s).outcome = .next t) (hr : s.result = .none) :
    t = s.terminated ∨ t.result = .none ∨ WriteFailed s t := by
  rcases enterTermination_next h with ht | ⟨k, n, ha, hok, o, rfl, _⟩ | ⟨k, n, _, _, o, rfl, _⟩ |
    ⟨_, rfl | ⟨_, rfl⟩⟩
  · exact .inl ht
  · exact .inr (.inr ⟨rfl, rfl, k, n, hok, ha, rfl⟩)
  · exact .inr (.inl rfl)
  · exact .inr (.inl hr)
  · exact .inr (.inl hr)

end

/-! ## Outcomes and their causes (R201) -/

/-- R201: how the instruction `i` of a running session, from `s` to `t`, can leave the session. -/
inductive EndsBy (i : Instr) (s t : State) : Prop where
  /-- it goes on, or a reset that cut a write has ended it without an outcome -/
  | noOutcome (h : t.result = .none)
  /-- R142: the whole source is acknowledged and the termination complete -/
  | completed (hstate : t.state = .done) (hresult : t.result = .success) (hend : s.fileSize.toNat ≤ t.srcPos.toNat)
      (hout : t.outputs = s.outputs ++ s.terminationUnits.map .wire)
  /-- R203: a write failed -/
  | writeFailed (h : WriteFailed s t)
  /-- R143: the read failed -/
  | readFailed (hi : i = .rxFail) (ht : t = s.enterFailed .transportFailure)
  /-- R139: a NAK met a spent budget -/
  | budgetSpent (hi : i = .rxNak) (hs : s.state = .sendingBlock) (hspent : s.maxRetryL.toNat ≤ s.currentTry.toNat)
      (ht : t = s.enterFailed .retryLimitExceeded)
  /-- R140: the peer cancelled -/
  | cancelled (hi : i = .rxCan) (ht : t = s.enterCancelled)

section
variable {i : Instr} {s t : State}

theorem EndsBy.of_result (h : t.result = .none ∨ WriteFailed s t) : EndsBy i s t :=
  h.elim .noOutcome .writeFailed

/-- Every meaning gives a running session an outcome by a cause of R201 or not at all. -/
theorem exec_endsBy (hread : s.state.reading = true) (hr : s.result = .none) (h : exec i s = .next t) :
    EndsBy i s t := by
  cases i with
  | rxHandshake =>
    rcases execRxHandshake_next h with ⟨_, rfl⟩ | ⟨_, hz, h⟩ | ⟨_, _, h⟩
    · exact .noOutcome hr
    · rcases enterTermination_result (s := s.rewind.setEof true) h hr with rfl | hother
      · exact .completed rfl rfl (by simp [hz]) rfl
      · exact .of_result hother
    · obtain ⟨c, p, r, hload⟩ := loadBlock_frame (s.rewind.setEof false)
      rw [hload, Flow.andThen_go, RowPart.run_enterSending, Flow.andThen_go, RowPart.run_sendFrame] at h
      exact .of_result (sendFrame_result h hr :)
  | rxAck =>
    rcases execRxAck_next h with ⟨_, rfl⟩ | ⟨_, hend, h⟩ | ⟨_, _, h⟩
    · exact .noOutcome hr
    · rcases enterTermination_result (s := s.advanceBlock.setEof true) h hr with rfl | hother
      · exact .completed rfl rfl hend rfl
      · exact .of_result hother
    · obtain ⟨c, p, r, hload⟩ := loadBlock_frame s.advanceBlock
      rw [hload, Flow.andThen_go, RowPart.run_sendFrame] at h
      exact .of_result (sendFrame_result h hr :)
  | rxNak =>
    rcases execRxNak_next h with ⟨_, rfl⟩ | ⟨hs, hspent, ht⟩ | ⟨_, _, h⟩
    · exact .noOutcome hr
    · exact .budgetSpent rfl hs hspent ht
    · exact .of_result (sendFrame_result (s := s.countRetry) h hr :)
  | rxCan =>
    rcases execRxCan_next h with ⟨_, rfl⟩ | ⟨_, ht⟩
    · exact .noOutcome hr
    · exact .cancelled rfl ht
  | rxFail =>
    rcases execRxFail_next h with ⟨_, rfl⟩ | ⟨_, ht⟩
    · exact .noOutcome hr
    · exact .readFailed rfl ht
  | txFrame => exact .of_result (sendFrame_result h hr)
  | txEot => exact .of_result (txWrite_result h hr)
  | txRun => exact .of_result (sendRun_result h hr)
  | hostStart =>
    have hidle := (execHostStart_next h).1
    rw [not_idleLike_of_busy (busy_of_reading hread)] at hidle
    cases hidle
  | hostStartRsv | crcRsv => cases h
  | rxOther | crcHold | crcClear | crcUpdate => cases h; exact .noOutcome hr

end

/-! ## The outcome of a step -/

/-- R201: each outcome that a step from `s` to `t` can give a session, with its cause. -/
def OutcomesCaused (s t : State) : Prop :=
  (t.result = .success → t.state = .done ∧ s.fileSize.toNat ≤ t.srcPos.toNat ∧
    t.outputs = s.outputs ++ (if s.runFlag then [.wire [0x04], .wire [s.runByte]] else [.wire [0x04]])) ∧
  (t.result = .transportFailure → t.state = .failed ∧
    (s.inputs = .rx .rxfail :: t.inputs ∧ t.outputs = s.outputs ∨ ∃ k, QueueUsed (.txfail k) s t)) ∧
  (t.result = .retryLimitExceeded → t.state = .failed ∧ s.state = .sendingBlock ∧
    s.maxRetryL.toNat ≤ s.currentTry.toNat ∧ s.inputs = peerSends 0x15 :: t.inputs ∧ t.outputs = s.outputs) ∧
  (t.result = .cancelledByPeer → t.state = .cancelled ∧ s.inputs = peerSends 0x18 :: t.inputs ∧
    t.outputs = s.outputs) ∧
  t.result ≠ .sourceNotFound ∧ t.result ≠ .sourceOpenFailed

theorem OutcomesCaused.of_none {s t : State} (h : t.result = .none) : OutcomesCaused s t := by
  simp [OutcomesCaused, h]

/-- R28: an answer to a read is known from its encoding. -/
theorem RxAnswer.coded_injective : Function.Injective RxAnswer.coded := by
  intro a b h
  cases a <;> cases b <;> cases h <;> rfl

/-- The outcome of an instruction, where a received symbol or event was the oldest input. -/
theorem EndsBy.outcomesCaused {i : Instr} {s t : State} {rest : List Input}
    (h : EndsBy i { s with inputs := rest } t)
    (hin : ∀ a : RxAnswer, encode s.runByte i = a.coded → s.inputs = .rx a :: rest) : OutcomesCaused s t := by
  cases h with
  | noOutcome h => exact .of_none h
  | completed hstate hresult hend hout =>
    rw [map_terminationUnits] at hout
    simpa [OutcomesCaused, hresult] using ⟨hstate, hend, hout⟩
  | writeFailed h =>
    obtain ⟨hstate, hresult, hused⟩ := h
    simpa [OutcomesCaused, hresult] using ⟨hstate, .inr hused⟩
  | readFailed hi ht =>
    subst hi ht
    simp [OutcomesCaused, hin .rxfail rfl]
  | budgetSpent hi hs hspent ht =>
    subst hi ht
    simpa [OutcomesCaused, hin (.byte 0x15) rfl, peerSends] using ⟨hs, hspent⟩
  | cancelled hi ht =>
    subst hi ht
    simp [OutcomesCaused, hin (.byte 0x18) rfl, peerSends]

section
variable {s t : State} (hread : s.state.reading = true) (hr : s.result = .none)
include hread

/-- R132: what an unblocked engine takes in a reading state is the oldest input. -/
theorem inputs_of_takeInput_reading {i : Input} {rest : List Input} (hb : s.blockedWrite = none)
    (htake : takeInput s.accepts s.inputs = some (i, rest)) : s.inputs = i :: rest := by
  cases hi : s.inputs with
  | nil => rw [hi] at htake; cases htake
  | cons j l =>
    rw [hi, takeInput_head l (accepts_reading hread hb j)] at htake
    cases htake
    rfl

include hr

/-- R132, R201: the outcome of a step that runs the unit `c`, where `c` is the oldest input if it was received. -/
theorem exec_outcomesCaused {c : Coded} {j : Instr} {rest : List Input} (hj : decode s.runByte c = .ok j)
    (hin : ∀ a : RxAnswer, c = a.coded → s.inputs = .rx a :: rest)
    (h : exec j { s with inputs := rest } = .next t) : OutcomesCaused s t :=
  (exec_endsBy (s := { s with inputs := rest }) hread hr h).outcomesCaused fun a ha =>
    hin a (((encodeOfDecode s.runByte c j hj).2).symm.trans ha)

/-- R201: a step that runs no instruction gives a session no outcome, and a blocked write or a START comes in no reading
state. -/
theorem step_outcomesCaused (hb : s.blockedWrite = none) (h : step s = .next t) : OutcomesCaused s t := by
  rcases step_next h with ⟨_, rfl⟩ | ⟨i, rest, htake, ⟨a, rfl, _, _, j, hj, he⟩ | ⟨a, _, _, rfl⟩ | ⟨a, w, _, hw, _⟩ |
    ⟨w, m, _, _, he⟩ | ⟨_, rfl⟩ | ⟨b, _, _, rfl⟩ | ⟨w, _, _, he⟩ | ⟨b, _, _, j, hj, he⟩⟩
  · exact .of_none hr
  · refine exec_outcomesCaused hread hr hj (fun a' ha => ?_) he
    rw [← RxAnswer.coded_injective ha]
    exact inputs_of_takeInput_reading hread hb htake
  · exact .of_none hr
  · rw [hb] at hw; cases hw
  · exact absurd he (execDecodeHost_not_next_of_busy (busy_of_reading hread :))
  · exact .of_none rfl
  · exact .of_none hr
  · exact exec_outcomesCaused (c := .crcOp w) hread hr rfl (fun a ha => by cases a <;> cases ha) he
  · exact exec_outcomesCaused (c := .txUnit b) hread hr hj (fun a ha => by cases a <;> cases ha) he

end

/-- Settles O53: the outcome of an instruction comes from one of its causes, and a received one was the oldest input. -/
theorem outcomesHaveTheirCauses : Obligations.OutcomesHaveTheirCauses :=
  fun _ _ hread hr hb h => step_outcomesCaused hread hr hb h

end Sys2Proof.Machine

/-! SUPPORT. The obligations of 70_reset_and_hazards.md: what reset leaves (R230), what it ends (R231), and the events
without a meaning (R240). -/

namespace Sys2Proof.Machine

/-! ## The reset state (R230) -/

/-- R49, R62: reset leaves no PBUF byte a value. -/
@[simp] theorem pbufRead_reset (i : Nat) : pbufRead State.reset i = none := rfl

@[simp] theorem pbufRead_hardReset (s : State) (i : Nat) : pbufRead s.hardReset i = none := pbufRead_reset i

/-- Settles O1: the registers the spec fixes at reset, and what the status ports make of them. -/
theorem resetLeavesIdle : Obligations.ResetLeavesIdle :=
  ⟨rfl, rfl, rfl, rfl, pbufRead_reset, rfl, rfl⟩

/-- Settles O47: a hard reset meets the invariant from canonical memories, and the reset state is its own hard reset. -/
theorem resetMeetsInv : Obligations.ResetMeetsInv :=
  inv_hardReset (s := State.reset) ⟨rfl, rfl, fun _ hi => nomatch hi⟩

/-! ## The oldest input comes next -/

section
variable {s : State} {i : Input} {rest : List Input}

theorem takeInput_oldest (hi : s.inputs = i :: rest) (ha : s.accepts i = true) :
    takeInput s.accepts s.inputs = some (i, rest) := by
  rw [hi]
  exact takeInput_head rest ha

/-- R130, R240: a START is taken in a busy state, there to be refused, and wherever no write is blocked. -/
theorem accepts_host {w : HostWord} {m : Memory} (h : s.state.busy = true ∨ s.blockedWrite = none) :
    s.accepts (.host w m) = true := by
  simpa [State.accepts] using h

theorem accepts_crcOp {w : CrcWord} (h : s.blockedWrite = none) : s.accepts (.crcOp w) = true := by
  simp [State.accepts, h]

end

/-! ## Reset ends a session (R231) -/

theorem txWrite_cutByReset (bs : List Byte) {s : State} {k : Nat} (h : s.nextAnswer = .cutByReset k) :
    txWrite bs s = .ended (s.popAnswer.emit (.wire (bs.take k))).hardReset := by
  rw [txWrite, h]; rfl

/-- R231: reset in the middle of a frame leaves its progress event and its first bytes. -/
theorem sendFrame_cutByReset {s : State} {bytes : List Byte} {k : Nat} (h : payload s = some bytes)
    (ha : s.nextAnswer = .cutByReset k) :
    sendFrame s = .ended
      (s.reportProgress.popAnswer.emit (.wire ((frameBytes s.blockNumber bytes s.blockCrc).take k))).hardReset := by
  have hp : s.reportProgress.nextAnswer = .cutByReset k := ha
  rw [sendFrame, frame_of_payload h]
  exact txWrite_cutByReset _ hp

/-- R231: reset ends a blocked step in its write; no later part of it runs. -/
theorem resumeWrite_cutByReset (w : BlockedWrite) (k : Nat) (s : State) :
    resumeWrite w (.cutByReset k) s = .ended (s.emit (.wire (w.bytes.take k))).hardReset :=
  foldl_andThen_ended w.rest _

/-- Settles O2: between two steps, in a frame's write and in a blocked write the engine is left in `State.hardReset`. -/
theorem resetEndsSession : Obligations.ResetEndsSession := by
  refine ⟨fun s rest hi => ?_, fun s bytes k hp ha => ?_, fun s w k rest hw hi => ?_⟩
  · exact ⟨_, step_of_reset (takeInput_oldest hi rfl), rfl, rfl, rfl, pbufRead_hardReset _,
      rfl, rfl, rfl, rfl, rfl, rfl⟩
  · exact ⟨_, congrArg Flow.outcome (sendFrame_cutByReset hp ha), rfl, rfl, rfl, by simp⟩
  · refine ⟨_, (step_of_late_answer hw hi).trans (congrArg Flow.outcome (resumeWrite_cutByReset w k _)), ?_⟩
    exact ⟨rfl, rfl, rfl, rfl, rfl⟩

/-! ## Events without a meaning are refused (R240) -/

/-- R88, R130: a host word whose status is not the reserved one is refused by a busy engine. -/
theorem exec_decodeHost_busy {w : HostWord} {s : State} (hb : s.state.busy = true) (hw : w.extractLsb' 0 2 ≠ 3) :
    exec (decodeHost w) s = .refused .startWhileBusy := by
  cases hstatus : SrcStatus.ofCode? (w.extractLsb' 0 2) with
  | none => exact absurd (SrcStatus.eq_reserved_of_ofCode? hstatus) hw
  | some status =>
    rw [decodeHost_of_accepted hstatus]
    exact exec_hostStart_busy hb ..

/-- R88, R130: a host word with the reserved status is refused in every state. -/
theorem exec_decodeHost_reserved {w : HostWord} (hw : w.extractLsb' 0 2 = 3) (s : State) :
    exec (decodeHost w) s = .refused .reservedSrcStatus := by
  rw [decodeHost_of_reserved (congrArg SrcStatus.ofCode? hw)]
  rfl

/-- R89, R118: an operation word with the reserved operation is refused in every state. -/
theorem exec_decodeCrc_reserved {w : CrcWord} (hw : w.extractLsb' 0 2 = 3) (s : State) :
    exec (decodeCrc w) s = .refused .reservedCrcOp := by
  rw [decodeCrc_of_reserved hw, exec_crcRsv]

/-- Settles O46: each event is taken, as the oldest input, and what it is taken for refuses it. -/
theorem meaninglessEventsRefused : Obligations.MeaninglessEventsRefused := by
  refine fun s rest => ⟨fun b hb hi => ?_, fun w m hb hw hi => ?_, fun w m hfree hw hi => ?_,
    fun w hfree hw hi => ?_⟩
  · exact step_of_breach_busy (takeInput_oldest hi rfl) hb
  · exact (step_of_host (takeInput_oldest hi (accepts_host (.inl hb)))).trans (exec_decodeHost_busy hb hw)
  · exact (step_of_host (takeInput_oldest hi (accepts_host hfree))).trans (exec_decodeHost_reserved hw _)
  · exact (step_of_crcOp (takeInput_oldest hi (accepts_crcOp hfree))).trans (exec_decodeCrc_reserved hw _)

end Sys2Proof.Machine
